-- ==== Sys2Proof/Word.lean ====
section
/-!
DEFINITION. The word types of the machine.

An integer register is kept in a 64-bit container of which an RV32 hart uses the low 32 bits (spec R10, R30);
a floating-point register in a 128-bit container of which the low FLEN bits are used (R50).
-/
namespace Sys2Proof

/-- One byte of memory (R80). -/
abbrev Byte := BitVec 8

/-- The container of an x register, of the pc and of an address: the low XLEN bits are used (R30, R35, R80). -/
abbrev Word := BitVec 64

/-- The container of an f register: the low FLEN bits are used (R50). -/
abbrev FWord := BitVec 128

/-- A five-bit register field (R195). -/
abbrev RegNum := BitVec 5

/-- A three-bit register field of the compressed formats; it names register 8 + field (R725). -/
abbrev CRegNum := BitVec 3

end Sys2Proof
end

