-- ==== Sys2Proof/Config.lean ====
section
/-!
DEFINITION. What the execution environment fixes for a run (spec/92_eei_decisions.md) and the free values the
spec leaves open (spec/93_implementation_defined.md). Nothing here changes while the machine runs.
-/
namespace Sys2Proof

/-- XLEN, the width of an x register (R10, D1). 128 is not a configuration (D30). -/
inductive Xlen | rv32 | rv64
  deriving DecidableEq, Repr, Inhabited

/-- XLEN in bits. -/
def Xlen.bits : Xlen → Nat
  | .rv32 => 32
  | .rv64 => 64

/-- The set EXT (R4, D2): one flag for each base variant or extension a hart may have. -/
structure Ext where
  e        : Bool
  m        : Bool
  a        : Bool
  f        : Bool
  d        : Bool
  q        : Bool
  c        : Bool
  zicsr    : Bool
  zifencei : Bool
  counters : Bool
  zam      : Bool
  ztso     : Bool
  deriving DecidableEq, Repr, Inhabited

/-- Byte order of data accesses (R88, D4). -/
inductive Endian | little | big
  deriving DecidableEq, Repr, Inhabited

/-- MISALIGNED: what a misaligned load or store does (R96, D5). -/
inductive MisalignedPolicy | trap | supported | either
  deriving DecidableEq, Repr, Inhabited

/-- Which exception a misaligned LR, SC or (without Zam) AMO raises (R433, R470, D15). -/
inductive MisalignedAtomicPolicy | addressMisaligned | accessFault | either
  deriving DecidableEq, Repr, Inhabited

/-- ENV_TRAP, ENV_CALL, ENV_BREAK (R805, D6, D12): terminate with the trap record, or ask the environment. -/
inductive EnvPolicy | terminate | environment
  deriving DecidableEq, Repr, Inhabited

/-- The nine atomic memory operations (R455). -/
inductive AmoOp | swap | add | xor | and | or | min | max | minu | maxu
  deriving DecidableEq, Repr, Inhabited

/-- What an address range holds (R81). -/
inductive RegionKind | vacant | main | io
  deriving DecidableEq, Repr, Inhabited

/-- One range of REGIONS with its permissions and attributes (R83, R109, D10). -/
structure Region where
  base     : Nat
  size     : Nat
  kind     : RegionKind
  fetch    : Bool
  read     : Bool
  write    : Bool
  /-- the access widths, in bytes, the range accepts -/
  widths   : List Nat
  /-- the atomic memory operations the range supports -/
  amos     : List AmoOp
  /-- whether the range supports LR and SC -/
  lrsc     : Bool
  /-- the LR/SC eventuality property (R448) -/
  eventual : Bool
  /-- whether a misaligned access to the range may be emulated; where it may not, an access-fault exception can stand for
  the address-misaligned one (R96, R99, R109) -/
  emulable : Bool
  /-- of an I/O range: strongly ordered (R109, R180) -/
  strong   : Bool
  /-- of an I/O range: its channel; 0 is no channel (R109, R180) -/
  channel  : Nat
  deriving DecidableEq, Repr, Inhabited

/-- RESERVATION_SET (R438, D13): the aligned block of `2 ^ log2` bytes, or an arbitrary set. -/
inductive ReservationPolicy
  | granule (log2 : Nat)
  | arbitrary
  deriving DecidableEq, Repr, Inhabited

/-- Every parameter of the model that is fixed for a run (the summary of spec/92_eei_decisions.md). -/
structure Config where
  xlen               : Xlen
  ext                : Ext
  endian             : Endian
  misaligned         : MisalignedPolicy
  misalignedAtomic   : MisalignedAtomicPolicy
  envTrap            : EnvPolicy
  envCall            : EnvPolicy
  envBreak           : EnvPolicy
  /-- the first region of the list that contains an address decides; an address in none is vacant -/
  regions            : List Region
  reservationPolicy  : ReservationPolicy
  countersAccessible : Bool
  /-- bit i is set when `hpmcounter i` is implemented, 3 ≤ i ≤ 31 (R47, R502) -/
  hpmImplemented     : BitVec 32
  /-- the width of the implemented hpm counters, at most 64 (R502) -/
  hpmWidth           : Nat
  /-- PPO_RSW_EXTRA (R172, D24): read by the memory model's relations only -/
  ppoRswExtra        : Bool
  /-- TIME_PERIOD (R501, D16), in picoseconds for one tick of `time`: read by Progress.lean only (log 31) -/
  timePeriod         : Nat
  deriving DecidableEq, Repr, Inhabited

/-- One contiguous run of byte addresses. -/
structure ByteRange where
  base : Nat
  size : Nat
  deriving DecidableEq, Repr, Inhabited

/-- Direction of an explicit access to a device. -/
inductive IoKind | read | write
  deriving DecidableEq, Repr, Inhabited

/-- One explicit access that touched an I/O region (R104): the model's record of it. -/
structure IoEvent where
  kind  : IoKind
  addr  : Nat
  width : Nat
  value : Nat
  deriving DecidableEq, Repr, Inhabited

/-- What happens to one misaligned access under MISALIGNED = either (R96, U21). -/
inductive MisalignedOutcome | complete | addressMisaligned | accessFault
  deriving DecidableEq, Repr, Inhabited

/-- What a free value is drawn for: the hart and how many steps it has made, so that no two harts share a draw (log 10). -/
structure Draw where
  hart : Nat
  step : Nat
  deriving DecidableEq, Repr, Inhabited

/-! ### Free values: opaque, so that no proof can see what they are. Each is applied to the draw of the state. -/

/-- DESIGN CHOICE (log 10), safe: by how much `cycle` advances in a step (R499, U53). -/
opaque Config.cycleAdvance (draw : Draw) : Nat

/-- DESIGN CHOICE (log 10), safe: by how much `time` advances in a step (R501, U53). -/
opaque Config.timeAdvance (draw : Draw) : Nat

/-- DESIGN CHOICE (log 10), safe: by how much hpm counter `i` advances in a step (R502, U56). -/
opaque Config.hpmAdvance (draw : Draw) (i : Nat) : Nat

/-- DESIGN CHOICE (log 10), safe: whether an SC fails for an implementation reason (R443, U41, U43, U47). -/
opaque Config.spuriousFail (draw : Draw) : Bool

/-- DESIGN CHOICE (log 10), safe: what a misaligned load or store does under MISALIGNED = either (R96, U21). -/
opaque Config.misalignedChoice (draw : Draw) (addr width : Nat) : MisalignedOutcome

/-- DESIGN CHOICE (log 10), safe: whether a misaligned atomic raises the access fault (R99, U24). -/
opaque Config.misalignedAtomicFaults (draw : Draw) (addr width : Nat) : Bool

/-- DESIGN CHOICE (log 10), safe: which of the values a byte has held is fetched (R120, U35). -/
opaque Config.heldByteChoice (draw : Draw) (addr : Nat) : Nat

/-- DESIGN CHOICE (log 10), safe: the byte a device answers a load with, given the accesses made so far (R104, U28). -/
opaque Config.deviceByte (draw : Draw) (history : List IoEvent) (addr : Nat) : Byte

/-- DESIGN CHOICE (log 10), safe: the byte a device answers an instruction fetch with; a draw apart from that of a load, so
that a fetch and a load of one byte in one step need not agree (R104, U28). -/
opaque Config.deviceFetchByte (draw : Draw) (history : List IoEvent) (addr : Nat) : Byte

/-- DESIGN CHOICE (log 8), safe: what an arbitrary reservation set holds beside the accessed bytes (R438, U40). -/
opaque Config.extraReservation (addr width : Nat) : List ByteRange

end Sys2Proof
end

