-- ==== Sys2Proof/Syntax.lean ====
section
/-!
DEFINITION. The instructions: one constructor for each mnemonic of spec/opcode_table.json, in the table's order.

Fields are the instruction's own: register numbers, and immediates as the bits the encoding holds, put in order but
neither extended nor scaled. So `jal` holds offset[20:1], a branch offset[12:1], `cLw` offset[6:2]; a compressed
three-bit register field stays three bits. SLLI, SRLI and SRAI, which the table lists once for each XLEN, are one
constructor each with a six-bit shift amount whose bit 5 must be 0 on RV32 (R257, R362).
-/
namespace Sys2Proof

/-- The instruction set (spec R84, R190 to R242, R724). -/
inductive Instr where
  -- RV32I base instructions (spec/40_rv32i_base.md, spec/41_rv32i_fence_system_hints_zifencei.md)
  /-- LUI, R260. -/
  | lui (rd : RegNum) (imm : BitVec 20)
  /-- AUIPC, R261. -/
  | auipc (rd : RegNum) (imm : BitVec 20)
  /-- JAL, R280. -/
  | jal (rd : RegNum) (imm : BitVec 20)
  /-- JALR, R282. -/
  | jalr (rd rs1 : RegNum) (imm : BitVec 12)
  /-- BEQ, R286. -/
  | beq (rs1 rs2 : RegNum) (imm : BitVec 12)
  /-- BNE, R287. -/
  | bne (rs1 rs2 : RegNum) (imm : BitVec 12)
  /-- BLT, R288. -/
  | blt (rs1 rs2 : RegNum) (imm : BitVec 12)
  /-- BGE, R289. -/
  | bge (rs1 rs2 : RegNum) (imm : BitVec 12)
  /-- BLTU, R290. -/
  | bltu (rs1 rs2 : RegNum) (imm : BitVec 12)
  /-- BGEU, R291. -/
  | bgeu (rs1 rs2 : RegNum) (imm : BitVec 12)
  /-- LB, R297. -/
  | lb (rd rs1 : RegNum) (imm : BitVec 12)
  /-- LH, R298. -/
  | lh (rd rs1 : RegNum) (imm : BitVec 12)
  /-- LW, R299. -/
  | lw (rd rs1 : RegNum) (imm : BitVec 12)
  /-- LBU, R300. -/
  | lbu (rd rs1 : RegNum) (imm : BitVec 12)
  /-- LHU, R301. -/
  | lhu (rd rs1 : RegNum) (imm : BitVec 12)
  /-- SB, R302. -/
  | sb (rs2 rs1 : RegNum) (imm : BitVec 12)
  /-- SH, R303. -/
  | sh (rs2 rs1 : RegNum) (imm : BitVec 12)
  /-- SW, R304. -/
  | sw (rs2 rs1 : RegNum) (imm : BitVec 12)
  /-- ADDI, R251. -/
  | addi (rd rs1 : RegNum) (imm : BitVec 12)
  /-- SLTI, R252. -/
  | slti (rd rs1 : RegNum) (imm : BitVec 12)
  /-- SLTIU, R253. -/
  | sltiu (rd rs1 : RegNum) (imm : BitVec 12)
  /-- XORI, R256. -/
  | xori (rd rs1 : RegNum) (imm : BitVec 12)
  /-- ORI, R255. -/
  | ori (rd rs1 : RegNum) (imm : BitVec 12)
  /-- ANDI, R254. -/
  | andi (rd rs1 : RegNum) (imm : BitVec 12)
  /-- SLLI, R257, R362. -/
  | slli (rd rs1 : RegNum) (shamt : BitVec 6)
  /-- SRLI, R258, R363. -/
  | srli (rd rs1 : RegNum) (shamt : BitVec 6)
  /-- SRAI, R259, R364. -/
  | srai (rd rs1 : RegNum) (shamt : BitVec 6)
  /-- ADD, R262. -/
  | add (rd rs1 rs2 : RegNum)
  /-- SUB, R263. -/
  | sub (rd rs1 rs2 : RegNum)
  /-- SLL, R269. -/
  | sll (rd rs1 rs2 : RegNum)
  /-- SLT, R264. -/
  | slt (rd rs1 rs2 : RegNum)
  /-- SLTU, R265. -/
  | sltu (rd rs1 rs2 : RegNum)
  /-- XOR, R268. -/
  | xor (rd rs1 rs2 : RegNum)
  /-- SRL, R270. -/
  | srl (rd rs1 rs2 : RegNum)
  /-- SRA, R271. -/
  | sra (rd rs1 rs2 : RegNum)
  /-- OR, R267. -/
  | or (rd rs1 rs2 : RegNum)
  /-- AND, R266. -/
  | and (rd rs1 rs2 : RegNum)
  /-- FENCE.TSO, R323. -/
  | fenceTso (rs1 rd : RegNum)
  /-- FENCE, R321. -/
  | fence (fm pred succ : BitVec 4) (rs1 rd : RegNum)
  /-- ECALL, R330. -/
  | ecall
  /-- EBREAK, R331. -/
  | ebreak
  -- RV64I (spec/42_rv64i_rv128i.md)
  /-- LWU, R377. -/
  | lwu (rd rs1 : RegNum) (imm : BitVec 12)
  /-- LD, R376. -/
  | ld (rd rs1 : RegNum) (imm : BitVec 12)
  /-- SD, R378. -/
  | sd (rs2 rs1 : RegNum) (imm : BitVec 12)
  /-- ADDIW, R361. -/
  | addiw (rd rs1 : RegNum) (imm : BitVec 12)
  /-- SLLIW, R365. -/
  | slliw (rd rs1 : RegNum) (shamt : BitVec 5)
  /-- SRLIW, R366. -/
  | srliw (rd rs1 : RegNum) (shamt : BitVec 5)
  /-- SRAIW, R367. -/
  | sraiw (rd rs1 : RegNum) (shamt : BitVec 5)
  /-- ADDW, R370. -/
  | addw (rd rs1 rs2 : RegNum)
  /-- SUBW, R371. -/
  | subw (rd rs1 rs2 : RegNum)
  /-- SLLW, R372. -/
  | sllw (rd rs1 rs2 : RegNum)
  /-- SRLW, R373. -/
  | srlw (rd rs1 rs2 : RegNum)
  /-- SRAW, R374. -/
  | sraw (rd rs1 rs2 : RegNum)
  -- Zifencei (spec/41_rv32i_fence_system_hints_zifencei.md)
  /-- FENCE.I, R335. -/
  | fenceI (rd rs1 : RegNum) (imm : BitVec 12)
  -- Zicsr (spec/45_zicsr_counters.md)
  /-- CSRRW, R484. -/
  | csrrw (rd : RegNum) (csr : BitVec 12) (rs1 : RegNum)
  /-- CSRRS, R485. -/
  | csrrs (rd : RegNum) (csr : BitVec 12) (rs1 : RegNum)
  /-- CSRRC, R486. -/
  | csrrc (rd : RegNum) (csr : BitVec 12) (rs1 : RegNum)
  /-- CSRRWI, R487. -/
  | csrrwi (rd : RegNum) (csr : BitVec 12) (uimm : BitVec 5)
  /-- CSRRSI, R488. -/
  | csrrsi (rd : RegNum) (csr : BitVec 12) (uimm : BitVec 5)
  /-- CSRRCI, R489. -/
  | csrrci (rd : RegNum) (csr : BitVec 12) (uimm : BitVec 5)
  -- M (spec/43_m_muldiv.md)
  /-- MUL, R401. -/
  | mul (rd rs1 rs2 : RegNum)
  /-- MULH, R402. -/
  | mulh (rd rs1 rs2 : RegNum)
  /-- MULHSU, R403. -/
  | mulhsu (rd rs1 rs2 : RegNum)
  /-- MULHU, R404. -/
  | mulhu (rd rs1 rs2 : RegNum)
  /-- DIV, R405. -/
  | div (rd rs1 rs2 : RegNum)
  /-- DIVU, R406. -/
  | divu (rd rs1 rs2 : RegNum)
  /-- REM, R407. -/
  | rem (rd rs1 rs2 : RegNum)
  /-- REMU, R408. -/
  | remu (rd rs1 rs2 : RegNum)
  /-- MULW, R409. -/
  | mulw (rd rs1 rs2 : RegNum)
  /-- DIVW, R410. -/
  | divw (rd rs1 rs2 : RegNum)
  /-- DIVUW, R411. -/
  | divuw (rd rs1 rs2 : RegNum)
  /-- REMW, R412. -/
  | remw (rd rs1 rs2 : RegNum)
  /-- REMUW, R413. -/
  | remuw (rd rs1 rs2 : RegNum)
  -- A (spec/44_a_atomics.md)
  /-- LR.W, R434. -/
  | lrW (rd rs1 : RegNum) (aq rl : Bool)
  /-- SC.W, R436. -/
  | scW (rd rs1 rs2 : RegNum) (aq rl : Bool)
  /-- AMOSWAP.W, R456. -/
  | amoswapW (rd rs1 rs2 : RegNum) (aq rl : Bool)
  /-- AMOADD.W, R457. -/
  | amoaddW (rd rs1 rs2 : RegNum) (aq rl : Bool)
  /-- AMOXOR.W, R458. -/
  | amoxorW (rd rs1 rs2 : RegNum) (aq rl : Bool)
  /-- AMOAND.W, R459. -/
  | amoandW (rd rs1 rs2 : RegNum) (aq rl : Bool)
  /-- AMOOR.W, R460. -/
  | amoorW (rd rs1 rs2 : RegNum) (aq rl : Bool)
  /-- AMOMIN.W, R461. -/
  | amominW (rd rs1 rs2 : RegNum) (aq rl : Bool)
  /-- AMOMAX.W, R462. -/
  | amomaxW (rd rs1 rs2 : RegNum) (aq rl : Bool)
  /-- AMOMINU.W, R463. -/
  | amominuW (rd rs1 rs2 : RegNum) (aq rl : Bool)
  /-- AMOMAXU.W, R464. -/
  | amomaxuW (rd rs1 rs2 : RegNum) (aq rl : Bool)
  /-- LR.D, R435. -/
  | lrD (rd rs1 : RegNum) (aq rl : Bool)
  /-- SC.D, R437. -/
  | scD (rd rs1 rs2 : RegNum) (aq rl : Bool)
  /-- AMOSWAP.D, R471. -/
  | amoswapD (rd rs1 rs2 : RegNum) (aq rl : Bool)
  /-- AMOADD.D, R472. -/
  | amoaddD (rd rs1 rs2 : RegNum) (aq rl : Bool)
  /-- AMOXOR.D, R473. -/
  | amoxorD (rd rs1 rs2 : RegNum) (aq rl : Bool)
  /-- AMOAND.D, R474. -/
  | amoandD (rd rs1 rs2 : RegNum) (aq rl : Bool)
  /-- AMOOR.D, R475. -/
  | amoorD (rd rs1 rs2 : RegNum) (aq rl : Bool)
  /-- AMOMIN.D, R476. -/
  | amominD (rd rs1 rs2 : RegNum) (aq rl : Bool)
  /-- AMOMAX.D, R477. -/
  | amomaxD (rd rs1 rs2 : RegNum) (aq rl : Bool)
  /-- AMOMINU.D, R478. -/
  | amominuD (rd rs1 rs2 : RegNum) (aq rl : Bool)
  /-- AMOMAXU.D, R479. -/
  | amomaxuD (rd rs1 rs2 : RegNum) (aq rl : Bool)
  -- F (spec/46_f_single.md)
  /-- FLW, R540. -/
  | flw (rd rs1 : RegNum) (imm : BitVec 12)
  /-- FSW, R541. -/
  | fsw (rs2 rs1 : RegNum) (imm : BitVec 12)
  /-- FMADD.S, R549. -/
  | fmaddS (rd rs1 rs2 rs3 : RegNum) (rm : BitVec 3)
  /-- FMSUB.S, R550. -/
  | fmsubS (rd rs1 rs2 rs3 : RegNum) (rm : BitVec 3)
  /-- FNMSUB.S, R551. -/
  | fnmsubS (rd rs1 rs2 rs3 : RegNum) (rm : BitVec 3)
  /-- FNMADD.S, R552. -/
  | fnmaddS (rd rs1 rs2 rs3 : RegNum) (rm : BitVec 3)
  /-- FADD.S, R542. -/
  | faddS (rd rs1 rs2 : RegNum) (rm : BitVec 3)
  /-- FSUB.S, R543. -/
  | fsubS (rd rs1 rs2 : RegNum) (rm : BitVec 3)
  /-- FMUL.S, R544. -/
  | fmulS (rd rs1 rs2 : RegNum) (rm : BitVec 3)
  /-- FDIV.S, R545. -/
  | fdivS (rd rs1 rs2 : RegNum) (rm : BitVec 3)
  /-- FSQRT.S, R546. -/
  | fsqrtS (rd rs1 : RegNum) (rm : BitVec 3)
  /-- FSGNJ.S, R561. -/
  | fsgnjS (rd rs1 rs2 : RegNum)
  /-- FSGNJN.S, R562. -/
  | fsgnjnS (rd rs1 rs2 : RegNum)
  /-- FSGNJX.S, R563. -/
  | fsgnjxS (rd rs1 rs2 : RegNum)
  /-- FMIN.S, R547. -/
  | fminS (rd rs1 rs2 : RegNum)
  /-- FMAX.S, R548. -/
  | fmaxS (rd rs1 rs2 : RegNum)
  /-- FEQ.S, R566. -/
  | feqS (rd rs1 rs2 : RegNum)
  /-- FLT.S, R567. -/
  | fltS (rd rs1 rs2 : RegNum)
  /-- FLE.S, R568. -/
  | fleS (rd rs1 rs2 : RegNum)
  /-- FCLASS.S, R569. -/
  | fclassS (rd rs1 : RegNum)
  /-- FCVT.W.S, R553. -/
  | fcvtWS (rd rs1 : RegNum) (rm : BitVec 3)
  /-- FCVT.WU.S, R554. -/
  | fcvtWuS (rd rs1 : RegNum) (rm : BitVec 3)
  /-- FCVT.S.W, R557. -/
  | fcvtSW (rd rs1 : RegNum) (rm : BitVec 3)
  /-- FCVT.S.WU, R558. -/
  | fcvtSWu (rd rs1 : RegNum) (rm : BitVec 3)
  /-- FMV.X.W, R564. -/
  | fmvXW (rd rs1 : RegNum)
  /-- FMV.W.X, R565. -/
  | fmvWX (rd rs1 : RegNum)
  /-- FCVT.L.S, R555. -/
  | fcvtLS (rd rs1 : RegNum) (rm : BitVec 3)
  /-- FCVT.LU.S, R556. -/
  | fcvtLuS (rd rs1 : RegNum) (rm : BitVec 3)
  /-- FCVT.S.L, R559. -/
  | fcvtSL (rd rs1 : RegNum) (rm : BitVec 3)
  /-- FCVT.S.LU, R560. -/
  | fcvtSLu (rd rs1 : RegNum) (rm : BitVec 3)
  -- D (spec/47_d_double.md)
  /-- FLD, R610. -/
  | fld (rd rs1 : RegNum) (imm : BitVec 12)
  /-- FSD, R611. -/
  | fsd (rs2 rs1 : RegNum) (imm : BitVec 12)
  /-- FMADD.D, R619. -/
  | fmaddD (rd rs1 rs2 rs3 : RegNum) (rm : BitVec 3)
  /-- FMSUB.D, R620. -/
  | fmsubD (rd rs1 rs2 rs3 : RegNum) (rm : BitVec 3)
  /-- FNMSUB.D, R621. -/
  | fnmsubD (rd rs1 rs2 rs3 : RegNum) (rm : BitVec 3)
  /-- FNMADD.D, R622. -/
  | fnmaddD (rd rs1 rs2 rs3 : RegNum) (rm : BitVec 3)
  /-- FADD.D, R612. -/
  | faddD (rd rs1 rs2 : RegNum) (rm : BitVec 3)
  /-- FSUB.D, R613. -/
  | fsubD (rd rs1 rs2 : RegNum) (rm : BitVec 3)
  /-- FMUL.D, R614. -/
  | fmulD (rd rs1 rs2 : RegNum) (rm : BitVec 3)
  /-- FDIV.D, R615. -/
  | fdivD (rd rs1 rs2 : RegNum) (rm : BitVec 3)
  /-- FSQRT.D, R616. -/
  | fsqrtD (rd rs1 : RegNum) (rm : BitVec 3)
  /-- FSGNJ.D, R633. -/
  | fsgnjD (rd rs1 rs2 : RegNum)
  /-- FSGNJN.D, R634. -/
  | fsgnjnD (rd rs1 rs2 : RegNum)
  /-- FSGNJX.D, R635. -/
  | fsgnjxD (rd rs1 rs2 : RegNum)
  /-- FMIN.D, R617. -/
  | fminD (rd rs1 rs2 : RegNum)
  /-- FMAX.D, R618. -/
  | fmaxD (rd rs1 rs2 : RegNum)
  /-- FCVT.S.D, R631. -/
  | fcvtSD (rd rs1 : RegNum) (rm : BitVec 3)
  /-- FCVT.D.S, R632. -/
  | fcvtDS (rd rs1 : RegNum) (rm : BitVec 3)
  /-- FEQ.D, R638. -/
  | feqD (rd rs1 rs2 : RegNum)
  /-- FLT.D, R639. -/
  | fltD (rd rs1 rs2 : RegNum)
  /-- FLE.D, R640. -/
  | fleD (rd rs1 rs2 : RegNum)
  /-- FCLASS.D, R641. -/
  | fclassD (rd rs1 : RegNum)
  /-- FCVT.W.D, R623. -/
  | fcvtWD (rd rs1 : RegNum) (rm : BitVec 3)
  /-- FCVT.WU.D, R624. -/
  | fcvtWuD (rd rs1 : RegNum) (rm : BitVec 3)
  /-- FCVT.D.W, R627. -/
  | fcvtDW (rd rs1 : RegNum) (rm : BitVec 3)
  /-- FCVT.D.WU, R628. -/
  | fcvtDWu (rd rs1 : RegNum) (rm : BitVec 3)
  /-- FCVT.L.D, R625. -/
  | fcvtLD (rd rs1 : RegNum) (rm : BitVec 3)
  /-- FCVT.LU.D, R626. -/
  | fcvtLuD (rd rs1 : RegNum) (rm : BitVec 3)
  /-- FCVT.D.L, R629. -/
  | fcvtDL (rd rs1 : RegNum) (rm : BitVec 3)
  /-- FCVT.D.LU, R630. -/
  | fcvtDLu (rd rs1 : RegNum) (rm : BitVec 3)
  /-- FMV.X.D, R636. -/
  | fmvXD (rd rs1 : RegNum)
  /-- FMV.D.X, R637. -/
  | fmvDX (rd rs1 : RegNum)
  -- Q (spec/48_q_quad.md)
  /-- FLQ, R670. -/
  | flq (rd rs1 : RegNum) (imm : BitVec 12)
  /-- FSQ, R671. -/
  | fsq (rs2 rs1 : RegNum) (imm : BitVec 12)
  /-- FMADD.Q, R679. -/
  | fmaddQ (rd rs1 rs2 rs3 : RegNum) (rm : BitVec 3)
  /-- FMSUB.Q, R680. -/
  | fmsubQ (rd rs1 rs2 rs3 : RegNum) (rm : BitVec 3)
  /-- FNMSUB.Q, R681. -/
  | fnmsubQ (rd rs1 rs2 rs3 : RegNum) (rm : BitVec 3)
  /-- FNMADD.Q, R682. -/
  | fnmaddQ (rd rs1 rs2 rs3 : RegNum) (rm : BitVec 3)
  /-- FADD.Q, R672. -/
  | faddQ (rd rs1 rs2 : RegNum) (rm : BitVec 3)
  /-- FSUB.Q, R673. -/
  | fsubQ (rd rs1 rs2 : RegNum) (rm : BitVec 3)
  /-- FMUL.Q, R674. -/
  | fmulQ (rd rs1 rs2 : RegNum) (rm : BitVec 3)
  /-- FDIV.Q, R675. -/
  | fdivQ (rd rs1 rs2 : RegNum) (rm : BitVec 3)
  /-- FSQRT.Q, R676. -/
  | fsqrtQ (rd rs1 : RegNum) (rm : BitVec 3)
  /-- FSGNJ.Q, R695. -/
  | fsgnjQ (rd rs1 rs2 : RegNum)
  /-- FSGNJN.Q, R696. -/
  | fsgnjnQ (rd rs1 rs2 : RegNum)
  /-- FSGNJX.Q, R697. -/
  | fsgnjxQ (rd rs1 rs2 : RegNum)
  /-- FMIN.Q, R677. -/
  | fminQ (rd rs1 rs2 : RegNum)
  /-- FMAX.Q, R678. -/
  | fmaxQ (rd rs1 rs2 : RegNum)
  /-- FCVT.S.Q, R691. -/
  | fcvtSQ (rd rs1 : RegNum) (rm : BitVec 3)
  /-- FCVT.Q.S, R692. -/
  | fcvtQS (rd rs1 : RegNum) (rm : BitVec 3)
  /-- FCVT.D.Q, R693. -/
  | fcvtDQ (rd rs1 : RegNum) (rm : BitVec 3)
  /-- FCVT.Q.D, R694. -/
  | fcvtQD (rd rs1 : RegNum) (rm : BitVec 3)
  /-- FEQ.Q, R698. -/
  | feqQ (rd rs1 rs2 : RegNum)
  /-- FLT.Q, R699. -/
  | fltQ (rd rs1 rs2 : RegNum)
  /-- FLE.Q, R700. -/
  | fleQ (rd rs1 rs2 : RegNum)
  /-- FCLASS.Q, R701. -/
  | fclassQ (rd rs1 : RegNum)
  /-- FCVT.W.Q, R683. -/
  | fcvtWQ (rd rs1 : RegNum) (rm : BitVec 3)
  /-- FCVT.WU.Q, R684. -/
  | fcvtWuQ (rd rs1 : RegNum) (rm : BitVec 3)
  /-- FCVT.Q.W, R687. -/
  | fcvtQW (rd rs1 : RegNum) (rm : BitVec 3)
  /-- FCVT.Q.WU, R688. -/
  | fcvtQWu (rd rs1 : RegNum) (rm : BitVec 3)
  /-- FCVT.L.Q, R685. -/
  | fcvtLQ (rd rs1 : RegNum) (rm : BitVec 3)
  /-- FCVT.LU.Q, R686. -/
  | fcvtLuQ (rd rs1 : RegNum) (rm : BitVec 3)
  /-- FCVT.Q.L, R689. -/
  | fcvtQL (rd rs1 : RegNum) (rm : BitVec 3)
  /-- FCVT.Q.LU, R690. -/
  | fcvtQLu (rd rs1 : RegNum) (rm : BitVec 3)
  -- C (spec/49_c_compressed.md)
  /-- C.ADDI4SPN, R761. -/
  | cAddi4spn (rd : CRegNum) (imm : BitVec 8)
  /-- C.FLD, R744. -/
  | cFld (rd rs1 : CRegNum) (off : BitVec 5)
  /-- C.LQ, R742. -/
  | cLq (rd rs1 : CRegNum) (off : BitVec 5)
  /-- C.LW, R740. -/
  | cLw (rd rs1 : CRegNum) (off : BitVec 5)
  /-- C.FLW, R743. -/
  | cFlw (rd rs1 : CRegNum) (off : BitVec 5)
  /-- C.LD, R741. -/
  | cLd (rd rs1 : CRegNum) (off : BitVec 5)
  /-- C.FSD, R749. -/
  | cFsd (rs2 rs1 : CRegNum) (off : BitVec 5)
  /-- C.SQ, R747. -/
  | cSq (rs2 rs1 : CRegNum) (off : BitVec 5)
  /-- C.SW, R745. -/
  | cSw (rs2 rs1 : CRegNum) (off : BitVec 5)
  /-- C.FSW, R748. -/
  | cFsw (rs2 rs1 : CRegNum) (off : BitVec 5)
  /-- C.SD, R746. -/
  | cSd (rs2 rs1 : CRegNum) (off : BitVec 5)
  /-- C.NOP, R774. -/
  | cNop (imm : BitVec 6)
  /-- C.ADDI, R758. -/
  | cAddi (rd : RegNum) (imm : BitVec 6)
  /-- C.JAL, R751. -/
  | cJal (off : BitVec 11)
  /-- C.ADDIW, R759. -/
  | cAddiw (rd : RegNum) (imm : BitVec 6)
  /-- C.LI, R756. -/
  | cLi (rd : RegNum) (imm : BitVec 6)
  /-- C.ADDI16SP, R760. -/
  | cAddi16sp (imm : BitVec 6)
  /-- C.LUI, R757. -/
  | cLui (rd : RegNum) (imm : BitVec 6)
  /-- C.SRLI, R763. -/
  | cSrli (rd : CRegNum) (shamt : BitVec 6)
  /-- C.SRAI, R764. -/
  | cSrai (rd : CRegNum) (shamt : BitVec 6)
  /-- C.ANDI, R765. -/
  | cAndi (rd : CRegNum) (imm : BitVec 6)
  /-- C.SUB, R771. -/
  | cSub (rd rs2 : CRegNum)
  /-- C.XOR, R770. -/
  | cXor (rd rs2 : CRegNum)
  /-- C.OR, R769. -/
  | cOr (rd rs2 : CRegNum)
  /-- C.AND, R768. -/
  | cAnd (rd rs2 : CRegNum)
  /-- C.SUBW, R773. -/
  | cSubw (rd rs2 : CRegNum)
  /-- C.ADDW, R772. -/
  | cAddw (rd rs2 : CRegNum)
  /-- C.J, R750. -/
  | cJ (off : BitVec 11)
  /-- C.BEQZ, R754. -/
  | cBeqz (rs1 : CRegNum) (off : BitVec 8)
  /-- C.BNEZ, R755. -/
  | cBnez (rs1 : CRegNum) (off : BitVec 8)
  /-- C.SLLI, R762. -/
  | cSlli (rd : RegNum) (shamt : BitVec 6)
  /-- C.FLDSP, R734. -/
  | cFldsp (rd : RegNum) (off : BitVec 6)
  /-- C.LQSP, R732. -/
  | cLqsp (rd : RegNum) (off : BitVec 6)
  /-- C.LWSP, R730. -/
  | cLwsp (rd : RegNum) (off : BitVec 6)
  /-- C.FLWSP, R733. -/
  | cFlwsp (rd : RegNum) (off : BitVec 6)
  /-- C.LDSP, R731. -/
  | cLdsp (rd : RegNum) (off : BitVec 6)
  /-- C.JR, R752. -/
  | cJr (rs1 : RegNum)
  /-- C.MV, R766. -/
  | cMv (rd rs2 : RegNum)
  /-- C.EBREAK, R775. -/
  | cEbreak
  /-- C.JALR, R753. -/
  | cJalr (rs1 : RegNum)
  /-- C.ADD, R767. -/
  | cAdd (rd rs2 : RegNum)
  /-- C.FSDSP, R739. -/
  | cFsdsp (rs2 : RegNum) (off : BitVec 6)
  /-- C.SQSP, R737. -/
  | cSqsp (rs2 : RegNum) (off : BitVec 6)
  /-- C.SWSP, R735. -/
  | cSwsp (rs2 : RegNum) (off : BitVec 6)
  /-- C.FSWSP, R738. -/
  | cFswsp (rs2 : RegNum) (off : BitVec 6)
  /-- C.SDSP, R736. -/
  | cSdsp (rs2 : RegNum) (off : BitVec 6)
  deriving DecidableEq, Repr, Inhabited

end Sys2Proof
end

