-- ==== Sys2Proof/Machine/Legality.lean ====
section
/-!
DEFINITION. Which configurations the spec admits, and which instructions exist in one: the extension, XLEN,
register and operand conditions of the opcode table's `ext`, `xlen` and `constraint` keys (R194, R723, R727, R729).
-/
namespace Sys2Proof.Machine

/-- EXT is closed under the dependences of R4 (D2): D needs F, Q needs D, F and Counters need Zicsr, Zam needs A, and
the E base exists with XLEN = 32 only. -/
def extClosed (x : Xlen) (e : Ext) : Bool :=
  (!e.d || e.f) && (!e.q || e.d) && (!e.f || e.zicsr) && (!e.counters || e.zicsr) && (!e.zam || e.a) &&
    (!e.e || x == .rv32)

/-- The reservation granule is a power of two of at least 8 bytes (R438, D13). -/
def reservationLegal : ReservationPolicy → Bool
  | .granule k => 3 ≤ k
  | .arbitrary => true

/-- Whether the spec admits the configuration (D1 to D29); the model refuses to run any other (U17, U18). -/
def configLegal (c : Config) : Bool :=
  extClosed c.xlen c.ext && reservationLegal c.reservationPolicy && c.hpmWidth ≤ 64 && 0 < c.timePeriod

/-- IALIGN in bytes: 2 with C, else 4 (R191). -/
def ialignBytes (c : Config) : Nat := if c.ext.c then 2 else 4

/-- FLEN: 128 with Q, else 64 with D, else 32 (R50, D29). -/
def flen (e : Ext) : Nat := if e.q then 128 else if e.d then 64 else 32

/-- The extension an instruction belongs to is present (the table's `ext`; R194, R723). -/
def extOk (e : Ext) : Instr → Bool
  | .lui .. | .auipc .. | .jal .. | .jalr .. | .beq .. | .bne .. | .blt .. | .bge .. | .bltu .. | .bgeu ..
  | .lb .. | .lh .. | .lw .. | .lbu .. | .lhu .. | .sb .. | .sh .. | .sw .. | .addi .. | .slti .. | .sltiu ..
  | .xori .. | .ori .. | .andi .. | .slli .. | .srli .. | .srai .. | .add .. | .sub .. | .sll .. | .slt ..
  | .sltu .. | .xor .. | .srl .. | .sra .. | .or .. | .and .. | .fenceTso .. | .fence .. | .ecall | .ebreak
  | .lwu .. | .ld .. | .sd .. | .addiw .. | .slliw .. | .srliw .. | .sraiw .. | .addw .. | .subw .. | .sllw ..
  | .srlw .. | .sraw .. => true
  | .fenceI .. => e.zifencei
  | .csrrw .. | .csrrs .. | .csrrc .. | .csrrwi .. | .csrrsi .. | .csrrci .. => e.zicsr
  | .mul .. | .mulh .. | .mulhsu .. | .mulhu .. | .div .. | .divu .. | .rem .. | .remu .. | .mulw .. | .divw ..
  | .divuw .. | .remw .. | .remuw .. => e.m
  | .lrW .. | .scW .. | .amoswapW .. | .amoaddW .. | .amoxorW .. | .amoandW .. | .amoorW .. | .amominW ..
  | .amomaxW .. | .amominuW .. | .amomaxuW .. | .lrD .. | .scD .. | .amoswapD .. | .amoaddD .. | .amoxorD ..
  | .amoandD .. | .amoorD .. | .amominD .. | .amomaxD .. | .amominuD .. | .amomaxuD .. => e.a
  | .flw .. | .fsw .. | .fmaddS .. | .fmsubS .. | .fnmsubS .. | .fnmaddS .. | .faddS .. | .fsubS .. | .fmulS ..
  | .fdivS .. | .fsqrtS .. | .fsgnjS .. | .fsgnjnS .. | .fsgnjxS .. | .fminS .. | .fmaxS .. | .feqS ..
  | .fltS .. | .fleS .. | .fclassS .. | .fcvtWS .. | .fcvtWuS .. | .fcvtSW .. | .fcvtSWu .. | .fmvXW ..
  | .fmvWX .. | .fcvtLS .. | .fcvtLuS .. | .fcvtSL .. | .fcvtSLu .. => e.f
  | .fld .. | .fsd .. | .fmaddD .. | .fmsubD .. | .fnmsubD .. | .fnmaddD .. | .faddD .. | .fsubD .. | .fmulD ..
  | .fdivD .. | .fsqrtD .. | .fsgnjD .. | .fsgnjnD .. | .fsgnjxD .. | .fminD .. | .fmaxD .. | .fcvtSD ..
  | .fcvtDS .. | .feqD .. | .fltD .. | .fleD .. | .fclassD .. | .fcvtWD .. | .fcvtWuD .. | .fcvtDW ..
  | .fcvtDWu .. | .fcvtLD .. | .fcvtLuD .. | .fcvtDL .. | .fcvtDLu .. | .fmvXD .. | .fmvDX .. => e.d
  | .flq .. | .fsq .. | .fmaddQ .. | .fmsubQ .. | .fnmsubQ .. | .fnmaddQ .. | .faddQ .. | .fsubQ .. | .fmulQ ..
  | .fdivQ .. | .fsqrtQ .. | .fsgnjQ .. | .fsgnjnQ .. | .fsgnjxQ .. | .fminQ .. | .fmaxQ .. | .fcvtSQ ..
  | .fcvtQS .. | .fcvtDQ .. | .fcvtQD .. | .feqQ .. | .fltQ .. | .fleQ .. | .fclassQ .. | .fcvtWQ ..
  | .fcvtWuQ .. | .fcvtQW .. | .fcvtQWu .. | .fcvtLQ .. | .fcvtLuQ .. | .fcvtQL .. | .fcvtQLu .. => e.q
  | .cAddi4spn .. | .cLq .. | .cLw .. | .cLd .. | .cSq .. | .cSw .. | .cSd .. | .cNop .. | .cAddi .. | .cJal ..
  | .cAddiw .. | .cLi .. | .cAddi16sp .. | .cLui .. | .cSrli .. | .cSrai .. | .cAndi .. | .cSub .. | .cXor ..
  | .cOr .. | .cAnd .. | .cSubw .. | .cAddw .. | .cJ .. | .cBeqz .. | .cBnez .. | .cSlli .. | .cLqsp ..
  | .cLwsp .. | .cLdsp .. | .cJr .. | .cMv .. | .cEbreak | .cJalr .. | .cAdd .. | .cSqsp .. | .cSwsp ..
  | .cSdsp .. => e.c
  | .cFlw .. | .cFsw .. | .cFlwsp .. | .cFswsp .. => e.c && e.f
  | .cFld .. | .cFsd .. | .cFldsp .. | .cFsdsp .. => e.c && e.d

/-- The instruction exists at this XLEN (the table's `xlen`; R194, R723). -/
def xlenOk (x : Xlen) : Instr → Bool
  | .lui .. | .auipc .. | .jal .. | .jalr .. | .beq .. | .bne .. | .blt .. | .bge .. | .bltu .. | .bgeu ..
  | .lb .. | .lh .. | .lw .. | .lbu .. | .lhu .. | .sb .. | .sh .. | .sw .. | .addi .. | .slti .. | .sltiu ..
  | .xori .. | .ori .. | .andi .. | .slli .. | .srli .. | .srai .. | .add .. | .sub .. | .sll .. | .slt ..
  | .sltu .. | .xor .. | .srl .. | .sra .. | .or .. | .and .. | .fenceTso .. | .fence .. | .ecall | .ebreak
  | .fenceI .. | .csrrw .. | .csrrs .. | .csrrc .. | .csrrwi .. | .csrrsi .. | .csrrci .. | .mul .. | .mulh ..
  | .mulhsu .. | .mulhu .. | .div .. | .divu .. | .rem .. | .remu .. | .lrW .. | .scW .. | .amoswapW ..
  | .amoaddW .. | .amoxorW .. | .amoandW .. | .amoorW .. | .amominW .. | .amomaxW .. | .amominuW ..
  | .amomaxuW .. | .flw .. | .fsw .. | .fmaddS .. | .fmsubS .. | .fnmsubS .. | .fnmaddS .. | .faddS ..
  | .fsubS .. | .fmulS .. | .fdivS .. | .fsqrtS .. | .fsgnjS .. | .fsgnjnS .. | .fsgnjxS .. | .fminS ..
  | .fmaxS .. | .feqS .. | .fltS .. | .fleS .. | .fclassS .. | .fcvtWS .. | .fcvtWuS .. | .fcvtSW ..
  | .fcvtSWu .. | .fmvXW .. | .fmvWX .. | .fld .. | .fsd .. | .fmaddD .. | .fmsubD .. | .fnmsubD ..
  | .fnmaddD .. | .faddD .. | .fsubD .. | .fmulD .. | .fdivD .. | .fsqrtD .. | .fsgnjD .. | .fsgnjnD ..
  | .fsgnjxD .. | .fminD .. | .fmaxD .. | .fcvtSD .. | .fcvtDS .. | .feqD .. | .fltD .. | .fleD ..
  | .fclassD .. | .fcvtWD .. | .fcvtWuD .. | .fcvtDW .. | .fcvtDWu .. | .flq .. | .fsq .. | .fmaddQ ..
  | .fmsubQ .. | .fnmsubQ .. | .fnmaddQ .. | .faddQ .. | .fsubQ .. | .fmulQ .. | .fdivQ .. | .fsqrtQ ..
  | .fsgnjQ .. | .fsgnjnQ .. | .fsgnjxQ .. | .fminQ .. | .fmaxQ .. | .fcvtSQ .. | .fcvtQS .. | .fcvtDQ ..
  | .fcvtQD .. | .feqQ .. | .fltQ .. | .fleQ .. | .fclassQ .. | .fcvtWQ .. | .fcvtWuQ .. | .fcvtQW ..
  | .fcvtQWu .. | .cAddi4spn .. | .cFld .. | .cLw .. | .cFsd .. | .cSw .. | .cNop .. | .cAddi .. | .cLi ..
  | .cAddi16sp .. | .cLui .. | .cSrli .. | .cSrai .. | .cAndi .. | .cSub .. | .cXor .. | .cOr .. | .cAnd ..
  | .cJ .. | .cBeqz .. | .cBnez .. | .cSlli .. | .cFldsp .. | .cLwsp .. | .cJr .. | .cMv .. | .cEbreak
  | .cJalr .. | .cAdd .. | .cFsdsp .. | .cSwsp .. => true
  | .lwu .. | .ld .. | .sd .. | .addiw .. | .slliw .. | .srliw .. | .sraiw .. | .addw .. | .subw .. | .sllw ..
  | .srlw .. | .sraw .. | .mulw .. | .divw .. | .divuw .. | .remw .. | .remuw .. | .lrD .. | .scD ..
  | .amoswapD .. | .amoaddD .. | .amoxorD .. | .amoandD .. | .amoorD .. | .amominD .. | .amomaxD ..
  | .amominuD .. | .amomaxuD .. | .fcvtLS .. | .fcvtLuS .. | .fcvtSL .. | .fcvtSLu .. | .fcvtLD ..
  | .fcvtLuD .. | .fcvtDL .. | .fcvtDLu .. | .fmvXD .. | .fmvDX .. | .fcvtLQ .. | .fcvtLuQ .. | .fcvtQL ..
  | .fcvtQLu .. | .cLd .. | .cSd .. | .cAddiw .. | .cSubw .. | .cAddw .. | .cLdsp .. | .cSdsp .. => x == .rv64
  | .cFlw .. | .cFsw .. | .cJal .. | .cFlwsp .. | .cFswsp .. => x == .rv32
  | .cLq .. | .cSq .. | .cLqsp .. | .cSqsp .. => false

/-- The five-bit fields of an instruction that name x registers: the ones RV32E restricts to x0 to x15 (R34, R345, D25).
The fields FENCE, FENCE.TSO and FENCE.I ignore (R324, R336), f registers and immediates are not among them. -/
def xRegs : Instr → List RegNum
  | .fenceTso .. | .fence .. | .ecall | .ebreak | .fenceI .. | .fmaddS .. | .fmsubS .. | .fnmsubS ..
  | .fnmaddS .. | .faddS .. | .fsubS .. | .fmulS .. | .fdivS .. | .fsqrtS .. | .fsgnjS .. | .fsgnjnS ..
  | .fsgnjxS .. | .fminS .. | .fmaxS .. | .fmaddD .. | .fmsubD .. | .fnmsubD .. | .fnmaddD .. | .faddD ..
  | .fsubD .. | .fmulD .. | .fdivD .. | .fsqrtD .. | .fsgnjD .. | .fsgnjnD .. | .fsgnjxD .. | .fminD ..
  | .fmaxD .. | .fcvtSD .. | .fcvtDS .. | .fmaddQ .. | .fmsubQ .. | .fnmsubQ .. | .fnmaddQ .. | .faddQ ..
  | .fsubQ .. | .fmulQ .. | .fdivQ .. | .fsqrtQ .. | .fsgnjQ .. | .fsgnjnQ .. | .fsgnjxQ .. | .fminQ ..
  | .fmaxQ .. | .fcvtSQ .. | .fcvtQS .. | .fcvtDQ .. | .fcvtQD .. | .cAddi4spn .. | .cFld .. | .cLq ..
  | .cLw .. | .cFlw .. | .cLd .. | .cFsd .. | .cSq .. | .cSw .. | .cFsw .. | .cSd .. | .cNop .. | .cJal ..
  | .cAddi16sp .. | .cSrli .. | .cSrai .. | .cAndi .. | .cSub .. | .cXor .. | .cOr .. | .cAnd .. | .cSubw ..
  | .cAddw .. | .cJ .. | .cBeqz .. | .cBnez .. | .cFldsp .. | .cFlwsp .. | .cEbreak | .cFsdsp .. | .cFswsp .. => []
  | .lui rd _ | .auipc rd _ | .jal rd _ | .csrrwi rd _ _ | .csrrsi rd _ _ | .csrrci rd _ _ | .feqS rd _ _
  | .fltS rd _ _ | .fleS rd _ _ | .fclassS rd _ | .fcvtWS rd _ _ | .fcvtWuS rd _ _ | .fmvXW rd _
  | .fcvtLS rd _ _ | .fcvtLuS rd _ _ | .feqD rd _ _ | .fltD rd _ _ | .fleD rd _ _ | .fclassD rd _
  | .fcvtWD rd _ _ | .fcvtWuD rd _ _ | .fcvtLD rd _ _ | .fcvtLuD rd _ _ | .fmvXD rd _ | .feqQ rd _ _
  | .fltQ rd _ _ | .fleQ rd _ _ | .fclassQ rd _ | .fcvtWQ rd _ _ | .fcvtWuQ rd _ _ | .fcvtLQ rd _ _
  | .fcvtLuQ rd _ _ | .cAddi rd _ | .cAddiw rd _ | .cLi rd _ | .cLui rd _ | .cSlli rd _ | .cLqsp rd _
  | .cLwsp rd _ | .cLdsp rd _ => [rd]
  | .flw _ rs1 _ | .fsw _ rs1 _ | .fcvtSW _ rs1 _ | .fcvtSWu _ rs1 _ | .fmvWX _ rs1 | .fcvtSL _ rs1 _
  | .fcvtSLu _ rs1 _ | .fld _ rs1 _ | .fsd _ rs1 _ | .fcvtDW _ rs1 _ | .fcvtDWu _ rs1 _ | .fcvtDL _ rs1 _
  | .fcvtDLu _ rs1 _ | .fmvDX _ rs1 | .flq _ rs1 _ | .fsq _ rs1 _ | .fcvtQW _ rs1 _ | .fcvtQWu _ rs1 _
  | .fcvtQL _ rs1 _ | .fcvtQLu _ rs1 _ | .cJr rs1 | .cJalr rs1 => [rs1]
  | .cSqsp rs2 _ | .cSwsp rs2 _ | .cSdsp rs2 _ => [rs2]
  | .jalr rd rs1 _ | .lb rd rs1 _ | .lh rd rs1 _ | .lw rd rs1 _ | .lbu rd rs1 _ | .lhu rd rs1 _
  | .addi rd rs1 _ | .slti rd rs1 _ | .sltiu rd rs1 _ | .xori rd rs1 _ | .ori rd rs1 _ | .andi rd rs1 _
  | .slli rd rs1 _ | .srli rd rs1 _ | .srai rd rs1 _ | .lwu rd rs1 _ | .ld rd rs1 _ | .addiw rd rs1 _
  | .slliw rd rs1 _ | .srliw rd rs1 _ | .sraiw rd rs1 _ | .csrrw rd _ rs1 | .csrrs rd _ rs1 | .csrrc rd _ rs1
  | .lrW rd rs1 _ _ | .lrD rd rs1 _ _ => [rd, rs1]
  | .beq rs1 rs2 _ | .bne rs1 rs2 _ | .blt rs1 rs2 _ | .bge rs1 rs2 _ | .bltu rs1 rs2 _ | .bgeu rs1 rs2 _ => [rs1, rs2]
  | .sb rs2 rs1 _ | .sh rs2 rs1 _ | .sw rs2 rs1 _ | .sd rs2 rs1 _ => [rs2, rs1]
  | .cMv rd rs2 | .cAdd rd rs2 => [rd, rs2]
  | .add rd rs1 rs2 | .sub rd rs1 rs2 | .sll rd rs1 rs2 | .slt rd rs1 rs2 | .sltu rd rs1 rs2 | .xor rd rs1 rs2
  | .srl rd rs1 rs2 | .sra rd rs1 rs2 | .or rd rs1 rs2 | .and rd rs1 rs2 | .addw rd rs1 rs2 | .subw rd rs1 rs2
  | .sllw rd rs1 rs2 | .srlw rd rs1 rs2 | .sraw rd rs1 rs2 | .mul rd rs1 rs2 | .mulh rd rs1 rs2
  | .mulhsu rd rs1 rs2 | .mulhu rd rs1 rs2 | .div rd rs1 rs2 | .divu rd rs1 rs2 | .rem rd rs1 rs2
  | .remu rd rs1 rs2 | .mulw rd rs1 rs2 | .divw rd rs1 rs2 | .divuw rd rs1 rs2 | .remw rd rs1 rs2
  | .remuw rd rs1 rs2 | .scW rd rs1 rs2 _ _ | .amoswapW rd rs1 rs2 _ _ | .amoaddW rd rs1 rs2 _ _
  | .amoxorW rd rs1 rs2 _ _ | .amoandW rd rs1 rs2 _ _ | .amoorW rd rs1 rs2 _ _ | .amominW rd rs1 rs2 _ _
  | .amomaxW rd rs1 rs2 _ _ | .amominuW rd rs1 rs2 _ _ | .amomaxuW rd rs1 rs2 _ _ | .scD rd rs1 rs2 _ _
  | .amoswapD rd rs1 rs2 _ _ | .amoaddD rd rs1 rs2 _ _ | .amoxorD rd rs1 rs2 _ _ | .amoandD rd rs1 rs2 _ _
  | .amoorD rd rs1 rs2 _ _ | .amominD rd rs1 rs2 _ _ | .amomaxD rd rs1 rs2 _ _ | .amominuD rd rs1 rs2 _ _
  | .amomaxuD rd rs1 rs2 _ _ => [rd, rs1, rs2]

/-- A shift amount of five bits at XLEN = 32, of six at XLEN = 64 (R257, R362, R762). -/
def shiftOk (x : Xlen) (shamt : BitVec 6) : Bool := x == .rv64 || shamt.toNat < 32

/-- The operand conditions of the table's `constraint` key and of the more specific rows (R194, R727, R729): a FENCE
word that is FENCE.TSO's is FENCE.TSO (R323), and the excluded values of the compressed forms are reserved or other
instructions. HINT operands are allowed (R781). -/
def operandsOk (x : Xlen) : Instr → Bool
  | .fence fm pred succ _ _ => !(fm == 8 && pred == 3 && succ == 3)
  | .slli _ _ shamt | .srli _ _ shamt | .srai _ _ shamt => shiftOk x shamt
  | .cSrli _ shamt | .cSrai _ shamt | .cSlli _ shamt => shiftOk x shamt
  | .cAddi4spn _ imm => imm != 0
  | .cAddi rd _ | .cAddiw rd _ => rd != 0
  | .cAddi16sp imm => imm != 0
  | .cLui rd imm => rd != 2 && imm != 0
  | .cLwsp rd _ | .cLdsp rd _ | .cLqsp rd _ => rd != 0
  | .cJr rs1 | .cJalr rs1 => rs1 != 0
  | .cMv _ rs2 | .cAdd _ rs2 => rs2 != 0
  | .lui .. | .auipc .. | .jal .. | .jalr .. | .beq .. | .bne .. | .blt .. | .bge .. | .bltu .. | .bgeu ..
  | .lb .. | .lh .. | .lw .. | .lbu .. | .lhu .. | .sb .. | .sh .. | .sw .. | .addi .. | .slti .. | .sltiu ..
  | .xori .. | .ori .. | .andi .. | .add .. | .sub .. | .sll .. | .slt .. | .sltu .. | .xor .. | .srl ..
  | .sra .. | .or .. | .and .. | .fenceTso .. | .ecall | .ebreak | .lwu .. | .ld .. | .sd .. | .addiw ..
  | .slliw .. | .srliw .. | .sraiw .. | .addw .. | .subw .. | .sllw .. | .srlw .. | .sraw .. | .fenceI ..
  | .csrrw .. | .csrrs .. | .csrrc .. | .csrrwi .. | .csrrsi .. | .csrrci .. | .mul .. | .mulh .. | .mulhsu ..
  | .mulhu .. | .div .. | .divu .. | .rem .. | .remu .. | .mulw .. | .divw .. | .divuw .. | .remw ..
  | .remuw .. | .lrW .. | .scW .. | .amoswapW .. | .amoaddW .. | .amoxorW .. | .amoandW .. | .amoorW ..
  | .amominW .. | .amomaxW .. | .amominuW .. | .amomaxuW .. | .lrD .. | .scD .. | .amoswapD .. | .amoaddD ..
  | .amoxorD .. | .amoandD .. | .amoorD .. | .amominD .. | .amomaxD .. | .amominuD .. | .amomaxuD .. | .flw ..
  | .fsw .. | .fmaddS .. | .fmsubS .. | .fnmsubS .. | .fnmaddS .. | .faddS .. | .fsubS .. | .fmulS ..
  | .fdivS .. | .fsqrtS .. | .fsgnjS .. | .fsgnjnS .. | .fsgnjxS .. | .fminS .. | .fmaxS .. | .feqS ..
  | .fltS .. | .fleS .. | .fclassS .. | .fcvtWS .. | .fcvtWuS .. | .fcvtSW .. | .fcvtSWu .. | .fmvXW ..
  | .fmvWX .. | .fcvtLS .. | .fcvtLuS .. | .fcvtSL .. | .fcvtSLu .. | .fld .. | .fsd .. | .fmaddD ..
  | .fmsubD .. | .fnmsubD .. | .fnmaddD .. | .faddD .. | .fsubD .. | .fmulD .. | .fdivD .. | .fsqrtD ..
  | .fsgnjD .. | .fsgnjnD .. | .fsgnjxD .. | .fminD .. | .fmaxD .. | .fcvtSD .. | .fcvtDS .. | .feqD ..
  | .fltD .. | .fleD .. | .fclassD .. | .fcvtWD .. | .fcvtWuD .. | .fcvtDW .. | .fcvtDWu .. | .fcvtLD ..
  | .fcvtLuD .. | .fcvtDL .. | .fcvtDLu .. | .fmvXD .. | .fmvDX .. | .flq .. | .fsq .. | .fmaddQ ..
  | .fmsubQ .. | .fnmsubQ .. | .fnmaddQ .. | .faddQ .. | .fsubQ .. | .fmulQ .. | .fdivQ .. | .fsqrtQ ..
  | .fsgnjQ .. | .fsgnjnQ .. | .fsgnjxQ .. | .fminQ .. | .fmaxQ .. | .fcvtSQ .. | .fcvtQS .. | .fcvtDQ ..
  | .fcvtQD .. | .feqQ .. | .fltQ .. | .fleQ .. | .fclassQ .. | .fcvtWQ .. | .fcvtWuQ .. | .fcvtQW ..
  | .fcvtQWu .. | .fcvtLQ .. | .fcvtLuQ .. | .fcvtQL .. | .fcvtQLu .. | .cFld .. | .cLq .. | .cLw .. | .cFlw ..
  | .cLd .. | .cFsd .. | .cSq .. | .cSw .. | .cFsw .. | .cSd .. | .cNop .. | .cJal .. | .cLi .. | .cAndi ..
  | .cSub .. | .cXor .. | .cOr .. | .cAnd .. | .cSubw .. | .cAddw .. | .cJ .. | .cBeqz .. | .cBnez ..
  | .cFldsp .. | .cFlwsp .. | .cEbreak | .cFsdsp .. | .cSqsp .. | .cSwsp .. | .cFswsp .. | .cSdsp .. => true

/-- RV32E has x0 to x15 only (R34, D25). -/
def eRegsOk (e : Ext) (i : Instr) : Bool := !e.e || (xRegs i).all fun r => r.toNat < 16

/-- The instruction is a row of the table for this XLEN and EXT (R194). -/
def legalInstr (c : Config) (i : Instr) : Bool :=
  extOk c.ext i && xlenOk c.xlen i && operandsOk c.xlen i && eRegsOk c.ext i

end Sys2Proof.Machine
end

