-- ==== Sys2Proof/WellFormed.lean ====
section
/-!
DEFINITION. Well-formed instructions: the ones that exist, with these operands, in a configuration (R194). The checks
themselves are in Machine/Legality.lean.
-/
namespace Sys2Proof

/-- The instruction is one the opcode table has for this XLEN and EXT, with operands its row admits (R194). -/
abbrev WellFormed (c : Config) (i : Instr) : Prop := Machine.legalInstr c i = true

end Sys2Proof
end

