-- ==== Sys2Proof/Decode.lean ====
section
/-!
DEFINITION. The decoder, total on any bits and bytes, and after it the encoder, both written from the formats of
spec/30_encoding.md (R195 to R213) and spec/49_c_compressed.md (R724 to R775).

Decoding has two layers: the fields of the word choose a constructor (`decode32Raw`, `decode16Raw`), and the
conditions of the table's row at this XLEN and EXT are checked on the result (`decode`). A word that fits no row is
`none`, which the step turns into the illegal-instruction exception (R228, D11).
-/
namespace Sys2Proof

/-- The bits of one instruction: one 16-bit parcel, or two parcels as a 32-bit word whose low half is the first (R190). -/
inductive Code
  | half (p : BitVec 16)
  | word (w : BitVec 32)
  deriving DecidableEq, Repr, Inhabited

/-- The length of an instruction in bytes. -/
def Code.length : Code → Nat
  | .half _ => 2
  | .word _ => 4

/-- The bits of an instruction as a number, bit 0 the least significant bit of its first parcel. -/
def Code.bits : Code → Nat
  | .half p => p.toNat
  | .word w => w.toNat

/-! ### Fields of a 32-bit word (R195 to R198) -/

def opcodeF (w : BitVec 32) : BitVec 7 := w.extractLsb' 0 7
def rdF (w : BitVec 32) : RegNum := w.extractLsb' 7 5
def f3F (w : BitVec 32) : BitVec 3 := w.extractLsb' 12 3
def rs1F (w : BitVec 32) : RegNum := w.extractLsb' 15 5
def rs2F (w : BitVec 32) : RegNum := w.extractLsb' 20 5
def f7F (w : BitVec 32) : BitVec 7 := w.extractLsb' 25 7
def f6F (w : BitVec 32) : BitVec 6 := w.extractLsb' 26 6
def shamtF (w : BitVec 32) : BitVec 6 := w.extractLsb' 20 6
def f5F (w : BitVec 32) : BitVec 5 := w.extractLsb' 27 5
def fmtF (w : BitVec 32) : BitVec 2 := w.extractLsb' 25 2
def rs3F (w : BitVec 32) : RegNum := w.extractLsb' 27 5

/-- imm[11:0] of the I format. -/
def immI (w : BitVec 32) : BitVec 12 := w.extractLsb' 20 12

/-- imm[11:5] and imm[4:0] of the S format. -/
def immS (w : BitVec 32) : BitVec 12 := w.extractLsb' 25 7 ++ w.extractLsb' 7 5

/-- imm[12:1] of the B format, from imm[12|10:5] and imm[4:1|11]. -/
def immB (w : BitVec 32) : BitVec 12 :=
  w.extractLsb' 31 1 ++ w.extractLsb' 7 1 ++ w.extractLsb' 25 6 ++ w.extractLsb' 8 4

/-- imm[31:12] of the U format. -/
def immU (w : BitVec 32) : BitVec 20 := w.extractLsb' 12 20

/-- imm[20:1] of the J format, from imm[20|10:1|11|19:12]. -/
def immJ (w : BitVec 32) : BitVec 20 :=
  w.extractLsb' 31 1 ++ w.extractLsb' 12 8 ++ w.extractLsb' 20 1 ++ w.extractLsb' 21 10

/-! ### 32-bit words, by major opcode (R199, R210 to R213) -/

/-- Major opcode LOAD. -/
def decodeLoad (w : BitVec 32) : Option Instr :=
  match f3F w with
  | 0x0#3 => some (.lb (rdF w) (rs1F w) (immI w))
  | 0x1#3 => some (.lh (rdF w) (rs1F w) (immI w))
  | 0x2#3 => some (.lw (rdF w) (rs1F w) (immI w))
  | 0x3#3 => some (.ld (rdF w) (rs1F w) (immI w))
  | 0x4#3 => some (.lbu (rdF w) (rs1F w) (immI w))
  | 0x5#3 => some (.lhu (rdF w) (rs1F w) (immI w))
  | 0x6#3 => some (.lwu (rdF w) (rs1F w) (immI w))
  | _ => none

/-- Major opcode LOAD-FP. -/
def decodeLoadFp (w : BitVec 32) : Option Instr :=
  match f3F w with
  | 0x2#3 => some (.flw (rdF w) (rs1F w) (immI w))
  | 0x3#3 => some (.fld (rdF w) (rs1F w) (immI w))
  | 0x4#3 => some (.flq (rdF w) (rs1F w) (immI w))
  | _ => none

/-- Major opcode MISC-MEM. -/
def decodeMiscMem (w : BitVec 32) : Option Instr :=
  match f3F w with
  | 0x0#3 =>
    if w.extractLsb' 20 12 == 0x833#12 then some (.fenceTso (rs1F w) (rdF w))
    else some (.fence (w.extractLsb' 28 4) (w.extractLsb' 24 4) (w.extractLsb' 20 4) (rs1F w) (rdF w))
  | 0x1#3 => some (.fenceI (rdF w) (rs1F w) (immI w))
  | _ => none

/-- Major opcode OP-IMM. -/
def decodeOpImm (w : BitVec 32) : Option Instr :=
  match f3F w with
  | 0x0#3 => some (.addi (rdF w) (rs1F w) (immI w))
  | 0x1#3 => if f6F w == 0x0#6 then some (.slli (rdF w) (rs1F w) (shamtF w)) else none
  | 0x2#3 => some (.slti (rdF w) (rs1F w) (immI w))
  | 0x3#3 => some (.sltiu (rdF w) (rs1F w) (immI w))
  | 0x4#3 => some (.xori (rdF w) (rs1F w) (immI w))
  | 0x5#3 =>
    match f6F w with
    | 0x0#6 => some (.srli (rdF w) (rs1F w) (shamtF w))
    | 0x10#6 => some (.srai (rdF w) (rs1F w) (shamtF w))
    | _ => none
  | 0x6#3 => some (.ori (rdF w) (rs1F w) (immI w))
  | 0x7#3 => some (.andi (rdF w) (rs1F w) (immI w))
  | _ => none

/-- Major opcode OP-IMM-32. -/
def decodeOpImm32 (w : BitVec 32) : Option Instr :=
  match f3F w with
  | 0x0#3 => some (.addiw (rdF w) (rs1F w) (immI w))
  | 0x1#3 => if f7F w == 0x0#7 then some (.slliw (rdF w) (rs1F w) (rs2F w)) else none
  | 0x5#3 =>
    match f7F w with
    | 0x0#7 => some (.srliw (rdF w) (rs1F w) (rs2F w))
    | 0x20#7 => some (.sraiw (rdF w) (rs1F w) (rs2F w))
    | _ => none
  | _ => none

/-- Major opcode STORE. -/
def decodeStore (w : BitVec 32) : Option Instr :=
  match f3F w with
  | 0x0#3 => some (.sb (rs2F w) (rs1F w) (immS w))
  | 0x1#3 => some (.sh (rs2F w) (rs1F w) (immS w))
  | 0x2#3 => some (.sw (rs2F w) (rs1F w) (immS w))
  | 0x3#3 => some (.sd (rs2F w) (rs1F w) (immS w))
  | _ => none

/-- Major opcode STORE-FP. -/
def decodeStoreFp (w : BitVec 32) : Option Instr :=
  match f3F w with
  | 0x2#3 => some (.fsw (rs2F w) (rs1F w) (immS w))
  | 0x3#3 => some (.fsd (rs2F w) (rs1F w) (immS w))
  | 0x4#3 => some (.fsq (rs2F w) (rs1F w) (immS w))
  | _ => none

/-- Major opcode AMO. -/
def decodeAmo (w : BitVec 32) : Option Instr :=
  match f3F w with
  | 0x2#3 =>
    match f5F w with
    | 0x0#5 => some (.amoaddW (rdF w) (rs1F w) (rs2F w) (w.getLsbD 26) (w.getLsbD 25))
    | 0x1#5 => some (.amoswapW (rdF w) (rs1F w) (rs2F w) (w.getLsbD 26) (w.getLsbD 25))
    | 0x2#5 => if rs2F w == 0x0#5 then some (.lrW (rdF w) (rs1F w) (w.getLsbD 26) (w.getLsbD 25)) else none
    | 0x3#5 => some (.scW (rdF w) (rs1F w) (rs2F w) (w.getLsbD 26) (w.getLsbD 25))
    | 0x4#5 => some (.amoxorW (rdF w) (rs1F w) (rs2F w) (w.getLsbD 26) (w.getLsbD 25))
    | 0x8#5 => some (.amoorW (rdF w) (rs1F w) (rs2F w) (w.getLsbD 26) (w.getLsbD 25))
    | 0xc#5 => some (.amoandW (rdF w) (rs1F w) (rs2F w) (w.getLsbD 26) (w.getLsbD 25))
    | 0x10#5 => some (.amominW (rdF w) (rs1F w) (rs2F w) (w.getLsbD 26) (w.getLsbD 25))
    | 0x14#5 => some (.amomaxW (rdF w) (rs1F w) (rs2F w) (w.getLsbD 26) (w.getLsbD 25))
    | 0x18#5 => some (.amominuW (rdF w) (rs1F w) (rs2F w) (w.getLsbD 26) (w.getLsbD 25))
    | 0x1c#5 => some (.amomaxuW (rdF w) (rs1F w) (rs2F w) (w.getLsbD 26) (w.getLsbD 25))
    | _ => none
  | 0x3#3 =>
    match f5F w with
    | 0x0#5 => some (.amoaddD (rdF w) (rs1F w) (rs2F w) (w.getLsbD 26) (w.getLsbD 25))
    | 0x1#5 => some (.amoswapD (rdF w) (rs1F w) (rs2F w) (w.getLsbD 26) (w.getLsbD 25))
    | 0x2#5 => if rs2F w == 0x0#5 then some (.lrD (rdF w) (rs1F w) (w.getLsbD 26) (w.getLsbD 25)) else none
    | 0x3#5 => some (.scD (rdF w) (rs1F w) (rs2F w) (w.getLsbD 26) (w.getLsbD 25))
    | 0x4#5 => some (.amoxorD (rdF w) (rs1F w) (rs2F w) (w.getLsbD 26) (w.getLsbD 25))
    | 0x8#5 => some (.amoorD (rdF w) (rs1F w) (rs2F w) (w.getLsbD 26) (w.getLsbD 25))
    | 0xc#5 => some (.amoandD (rdF w) (rs1F w) (rs2F w) (w.getLsbD 26) (w.getLsbD 25))
    | 0x10#5 => some (.amominD (rdF w) (rs1F w) (rs2F w) (w.getLsbD 26) (w.getLsbD 25))
    | 0x14#5 => some (.amomaxD (rdF w) (rs1F w) (rs2F w) (w.getLsbD 26) (w.getLsbD 25))
    | 0x18#5 => some (.amominuD (rdF w) (rs1F w) (rs2F w) (w.getLsbD 26) (w.getLsbD 25))
    | 0x1c#5 => some (.amomaxuD (rdF w) (rs1F w) (rs2F w) (w.getLsbD 26) (w.getLsbD 25))
    | _ => none
  | _ => none

/-- Major opcode OP. -/
def decodeOp (w : BitVec 32) : Option Instr :=
  match f3F w with
  | 0x0#3 =>
    match f7F w with
    | 0x0#7 => some (.add (rdF w) (rs1F w) (rs2F w))
    | 0x1#7 => some (.mul (rdF w) (rs1F w) (rs2F w))
    | 0x20#7 => some (.sub (rdF w) (rs1F w) (rs2F w))
    | _ => none
  | 0x1#3 =>
    match f7F w with
    | 0x0#7 => some (.sll (rdF w) (rs1F w) (rs2F w))
    | 0x1#7 => some (.mulh (rdF w) (rs1F w) (rs2F w))
    | _ => none
  | 0x2#3 =>
    match f7F w with
    | 0x0#7 => some (.slt (rdF w) (rs1F w) (rs2F w))
    | 0x1#7 => some (.mulhsu (rdF w) (rs1F w) (rs2F w))
    | _ => none
  | 0x3#3 =>
    match f7F w with
    | 0x0#7 => some (.sltu (rdF w) (rs1F w) (rs2F w))
    | 0x1#7 => some (.mulhu (rdF w) (rs1F w) (rs2F w))
    | _ => none
  | 0x4#3 =>
    match f7F w with
    | 0x0#7 => some (.xor (rdF w) (rs1F w) (rs2F w))
    | 0x1#7 => some (.div (rdF w) (rs1F w) (rs2F w))
    | _ => none
  | 0x5#3 =>
    match f7F w with
    | 0x0#7 => some (.srl (rdF w) (rs1F w) (rs2F w))
    | 0x1#7 => some (.divu (rdF w) (rs1F w) (rs2F w))
    | 0x20#7 => some (.sra (rdF w) (rs1F w) (rs2F w))
    | _ => none
  | 0x6#3 =>
    match f7F w with
    | 0x0#7 => some (.or (rdF w) (rs1F w) (rs2F w))
    | 0x1#7 => some (.rem (rdF w) (rs1F w) (rs2F w))
    | _ => none
  | 0x7#3 =>
    match f7F w with
    | 0x0#7 => some (.and (rdF w) (rs1F w) (rs2F w))
    | 0x1#7 => some (.remu (rdF w) (rs1F w) (rs2F w))
    | _ => none
  | _ => none

/-- Major opcode OP-32. -/
def decodeOp32 (w : BitVec 32) : Option Instr :=
  match f3F w with
  | 0x0#3 =>
    match f7F w with
    | 0x0#7 => some (.addw (rdF w) (rs1F w) (rs2F w))
    | 0x1#7 => some (.mulw (rdF w) (rs1F w) (rs2F w))
    | 0x20#7 => some (.subw (rdF w) (rs1F w) (rs2F w))
    | _ => none
  | 0x1#3 => if f7F w == 0x0#7 then some (.sllw (rdF w) (rs1F w) (rs2F w)) else none
  | 0x4#3 => if f7F w == 0x1#7 then some (.divw (rdF w) (rs1F w) (rs2F w)) else none
  | 0x5#3 =>
    match f7F w with
    | 0x0#7 => some (.srlw (rdF w) (rs1F w) (rs2F w))
    | 0x1#7 => some (.divuw (rdF w) (rs1F w) (rs2F w))
    | 0x20#7 => some (.sraw (rdF w) (rs1F w) (rs2F w))
    | _ => none
  | 0x6#3 => if f7F w == 0x1#7 then some (.remw (rdF w) (rs1F w) (rs2F w)) else none
  | 0x7#3 => if f7F w == 0x1#7 then some (.remuw (rdF w) (rs1F w) (rs2F w)) else none
  | _ => none

/-- Major opcode MADD. -/
def decodeMadd (w : BitVec 32) : Option Instr :=
  match fmtF w with
  | 0x0#2 => some (.fmaddS (rdF w) (rs1F w) (rs2F w) (rs3F w) (f3F w))
  | 0x1#2 => some (.fmaddD (rdF w) (rs1F w) (rs2F w) (rs3F w) (f3F w))
  | 0x3#2 => some (.fmaddQ (rdF w) (rs1F w) (rs2F w) (rs3F w) (f3F w))
  | _ => none

/-- Major opcode MSUB. -/
def decodeMsub (w : BitVec 32) : Option Instr :=
  match fmtF w with
  | 0x0#2 => some (.fmsubS (rdF w) (rs1F w) (rs2F w) (rs3F w) (f3F w))
  | 0x1#2 => some (.fmsubD (rdF w) (rs1F w) (rs2F w) (rs3F w) (f3F w))
  | 0x3#2 => some (.fmsubQ (rdF w) (rs1F w) (rs2F w) (rs3F w) (f3F w))
  | _ => none

/-- Major opcode NMSUB. -/
def decodeNmsub (w : BitVec 32) : Option Instr :=
  match fmtF w with
  | 0x0#2 => some (.fnmsubS (rdF w) (rs1F w) (rs2F w) (rs3F w) (f3F w))
  | 0x1#2 => some (.fnmsubD (rdF w) (rs1F w) (rs2F w) (rs3F w) (f3F w))
  | 0x3#2 => some (.fnmsubQ (rdF w) (rs1F w) (rs2F w) (rs3F w) (f3F w))
  | _ => none

/-- Major opcode NMADD. -/
def decodeNmadd (w : BitVec 32) : Option Instr :=
  match fmtF w with
  | 0x0#2 => some (.fnmaddS (rdF w) (rs1F w) (rs2F w) (rs3F w) (f3F w))
  | 0x1#2 => some (.fnmaddD (rdF w) (rs1F w) (rs2F w) (rs3F w) (f3F w))
  | 0x3#2 => some (.fnmaddQ (rdF w) (rs1F w) (rs2F w) (rs3F w) (f3F w))
  | _ => none

/-- Major opcode OP-FP. -/
def decodeOpFp (w : BitVec 32) : Option Instr :=
  match f7F w with
  | 0x0#7 => some (.faddS (rdF w) (rs1F w) (rs2F w) (f3F w))
  | 0x1#7 => some (.faddD (rdF w) (rs1F w) (rs2F w) (f3F w))
  | 0x3#7 => some (.faddQ (rdF w) (rs1F w) (rs2F w) (f3F w))
  | 0x4#7 => some (.fsubS (rdF w) (rs1F w) (rs2F w) (f3F w))
  | 0x5#7 => some (.fsubD (rdF w) (rs1F w) (rs2F w) (f3F w))
  | 0x7#7 => some (.fsubQ (rdF w) (rs1F w) (rs2F w) (f3F w))
  | 0x8#7 => some (.fmulS (rdF w) (rs1F w) (rs2F w) (f3F w))
  | 0x9#7 => some (.fmulD (rdF w) (rs1F w) (rs2F w) (f3F w))
  | 0xb#7 => some (.fmulQ (rdF w) (rs1F w) (rs2F w) (f3F w))
  | 0xc#7 => some (.fdivS (rdF w) (rs1F w) (rs2F w) (f3F w))
  | 0xd#7 => some (.fdivD (rdF w) (rs1F w) (rs2F w) (f3F w))
  | 0xf#7 => some (.fdivQ (rdF w) (rs1F w) (rs2F w) (f3F w))
  | 0x10#7 =>
    match f3F w with
    | 0x0#3 => some (.fsgnjS (rdF w) (rs1F w) (rs2F w))
    | 0x1#3 => some (.fsgnjnS (rdF w) (rs1F w) (rs2F w))
    | 0x2#3 => some (.fsgnjxS (rdF w) (rs1F w) (rs2F w))
    | _ => none
  | 0x11#7 =>
    match f3F w with
    | 0x0#3 => some (.fsgnjD (rdF w) (rs1F w) (rs2F w))
    | 0x1#3 => some (.fsgnjnD (rdF w) (rs1F w) (rs2F w))
    | 0x2#3 => some (.fsgnjxD (rdF w) (rs1F w) (rs2F w))
    | _ => none
  | 0x13#7 =>
    match f3F w with
    | 0x0#3 => some (.fsgnjQ (rdF w) (rs1F w) (rs2F w))
    | 0x1#3 => some (.fsgnjnQ (rdF w) (rs1F w) (rs2F w))
    | 0x2#3 => some (.fsgnjxQ (rdF w) (rs1F w) (rs2F w))
    | _ => none
  | 0x14#7 =>
    match f3F w with
    | 0x0#3 => some (.fminS (rdF w) (rs1F w) (rs2F w))
    | 0x1#3 => some (.fmaxS (rdF w) (rs1F w) (rs2F w))
    | _ => none
  | 0x15#7 =>
    match f3F w with
    | 0x0#3 => some (.fminD (rdF w) (rs1F w) (rs2F w))
    | 0x1#3 => some (.fmaxD (rdF w) (rs1F w) (rs2F w))
    | _ => none
  | 0x17#7 =>
    match f3F w with
    | 0x0#3 => some (.fminQ (rdF w) (rs1F w) (rs2F w))
    | 0x1#3 => some (.fmaxQ (rdF w) (rs1F w) (rs2F w))
    | _ => none
  | 0x20#7 =>
    match rs2F w with
    | 0x1#5 => some (.fcvtSD (rdF w) (rs1F w) (f3F w))
    | 0x3#5 => some (.fcvtSQ (rdF w) (rs1F w) (f3F w))
    | _ => none
  | 0x21#7 =>
    match rs2F w with
    | 0x0#5 => some (.fcvtDS (rdF w) (rs1F w) (f3F w))
    | 0x3#5 => some (.fcvtDQ (rdF w) (rs1F w) (f3F w))
    | _ => none
  | 0x23#7 =>
    match rs2F w with
    | 0x0#5 => some (.fcvtQS (rdF w) (rs1F w) (f3F w))
    | 0x1#5 => some (.fcvtQD (rdF w) (rs1F w) (f3F w))
    | _ => none
  | 0x2c#7 => if rs2F w == 0x0#5 then some (.fsqrtS (rdF w) (rs1F w) (f3F w)) else none
  | 0x2d#7 => if rs2F w == 0x0#5 then some (.fsqrtD (rdF w) (rs1F w) (f3F w)) else none
  | 0x2f#7 => if rs2F w == 0x0#5 then some (.fsqrtQ (rdF w) (rs1F w) (f3F w)) else none
  | 0x50#7 =>
    match f3F w with
    | 0x0#3 => some (.fleS (rdF w) (rs1F w) (rs2F w))
    | 0x1#3 => some (.fltS (rdF w) (rs1F w) (rs2F w))
    | 0x2#3 => some (.feqS (rdF w) (rs1F w) (rs2F w))
    | _ => none
  | 0x51#7 =>
    match f3F w with
    | 0x0#3 => some (.fleD (rdF w) (rs1F w) (rs2F w))
    | 0x1#3 => some (.fltD (rdF w) (rs1F w) (rs2F w))
    | 0x2#3 => some (.feqD (rdF w) (rs1F w) (rs2F w))
    | _ => none
  | 0x53#7 =>
    match f3F w with
    | 0x0#3 => some (.fleQ (rdF w) (rs1F w) (rs2F w))
    | 0x1#3 => some (.fltQ (rdF w) (rs1F w) (rs2F w))
    | 0x2#3 => some (.feqQ (rdF w) (rs1F w) (rs2F w))
    | _ => none
  | 0x60#7 =>
    match rs2F w with
    | 0x0#5 => some (.fcvtWS (rdF w) (rs1F w) (f3F w))
    | 0x1#5 => some (.fcvtWuS (rdF w) (rs1F w) (f3F w))
    | 0x2#5 => some (.fcvtLS (rdF w) (rs1F w) (f3F w))
    | 0x3#5 => some (.fcvtLuS (rdF w) (rs1F w) (f3F w))
    | _ => none
  | 0x61#7 =>
    match rs2F w with
    | 0x0#5 => some (.fcvtWD (rdF w) (rs1F w) (f3F w))
    | 0x1#5 => some (.fcvtWuD (rdF w) (rs1F w) (f3F w))
    | 0x2#5 => some (.fcvtLD (rdF w) (rs1F w) (f3F w))
    | 0x3#5 => some (.fcvtLuD (rdF w) (rs1F w) (f3F w))
    | _ => none
  | 0x63#7 =>
    match rs2F w with
    | 0x0#5 => some (.fcvtWQ (rdF w) (rs1F w) (f3F w))
    | 0x1#5 => some (.fcvtWuQ (rdF w) (rs1F w) (f3F w))
    | 0x2#5 => some (.fcvtLQ (rdF w) (rs1F w) (f3F w))
    | 0x3#5 => some (.fcvtLuQ (rdF w) (rs1F w) (f3F w))
    | _ => none
  | 0x68#7 =>
    match rs2F w with
    | 0x0#5 => some (.fcvtSW (rdF w) (rs1F w) (f3F w))
    | 0x1#5 => some (.fcvtSWu (rdF w) (rs1F w) (f3F w))
    | 0x2#5 => some (.fcvtSL (rdF w) (rs1F w) (f3F w))
    | 0x3#5 => some (.fcvtSLu (rdF w) (rs1F w) (f3F w))
    | _ => none
  | 0x69#7 =>
    match rs2F w with
    | 0x0#5 => some (.fcvtDW (rdF w) (rs1F w) (f3F w))
    | 0x1#5 => some (.fcvtDWu (rdF w) (rs1F w) (f3F w))
    | 0x2#5 => some (.fcvtDL (rdF w) (rs1F w) (f3F w))
    | 0x3#5 => some (.fcvtDLu (rdF w) (rs1F w) (f3F w))
    | _ => none
  | 0x6b#7 =>
    match rs2F w with
    | 0x0#5 => some (.fcvtQW (rdF w) (rs1F w) (f3F w))
    | 0x1#5 => some (.fcvtQWu (rdF w) (rs1F w) (f3F w))
    | 0x2#5 => some (.fcvtQL (rdF w) (rs1F w) (f3F w))
    | 0x3#5 => some (.fcvtQLu (rdF w) (rs1F w) (f3F w))
    | _ => none
  | 0x70#7 =>
    match f3F w with
    | 0x0#3 => if rs2F w == 0x0#5 then some (.fmvXW (rdF w) (rs1F w)) else none
    | 0x1#3 => if rs2F w == 0x0#5 then some (.fclassS (rdF w) (rs1F w)) else none
    | _ => none
  | 0x71#7 =>
    match f3F w with
    | 0x0#3 => if rs2F w == 0x0#5 then some (.fmvXD (rdF w) (rs1F w)) else none
    | 0x1#3 => if rs2F w == 0x0#5 then some (.fclassD (rdF w) (rs1F w)) else none
    | _ => none
  | 0x73#7 => if rs2F w == 0x0#5 && f3F w == 0x1#3 then some (.fclassQ (rdF w) (rs1F w)) else none
  | 0x78#7 => if rs2F w == 0x0#5 && f3F w == 0x0#3 then some (.fmvWX (rdF w) (rs1F w)) else none
  | 0x79#7 => if rs2F w == 0x0#5 && f3F w == 0x0#3 then some (.fmvDX (rdF w) (rs1F w)) else none
  | _ => none

/-- Major opcode BRANCH. -/
def decodeBranch (w : BitVec 32) : Option Instr :=
  match f3F w with
  | 0x0#3 => some (.beq (rs1F w) (rs2F w) (immB w))
  | 0x1#3 => some (.bne (rs1F w) (rs2F w) (immB w))
  | 0x4#3 => some (.blt (rs1F w) (rs2F w) (immB w))
  | 0x5#3 => some (.bge (rs1F w) (rs2F w) (immB w))
  | 0x6#3 => some (.bltu (rs1F w) (rs2F w) (immB w))
  | 0x7#3 => some (.bgeu (rs1F w) (rs2F w) (immB w))
  | _ => none

/-- Major opcode SYSTEM. -/
def decodeSystem (w : BitVec 32) : Option Instr :=
  match f3F w with
  | 0x0#3 =>
    if w == 0x00000073#32 then some .ecall else if w == 0x00100073#32 then some .ebreak else none
  | 0x1#3 => some (.csrrw (rdF w) (immI w) (rs1F w))
  | 0x2#3 => some (.csrrs (rdF w) (immI w) (rs1F w))
  | 0x3#3 => some (.csrrc (rdF w) (immI w) (rs1F w))
  | 0x5#3 => some (.csrrwi (rdF w) (immI w) (rs1F w))
  | 0x6#3 => some (.csrrsi (rdF w) (immI w) (rs1F w))
  | 0x7#3 => some (.csrrci (rdF w) (immI w) (rs1F w))
  | _ => none

/-- The instruction a 32-bit word encodes, before the conditions of XLEN and EXT (R194, R210 to R213): the major opcode
first (R199), then the function fields. -/
def decode32Raw (w : BitVec 32) : Option Instr :=
  match opcodeF w with
  | 0x03#7 => decodeLoad w
  | 0x07#7 => decodeLoadFp w
  | 0x0f#7 => decodeMiscMem w
  | 0x13#7 => decodeOpImm w
  | 0x17#7 => some (.auipc (rdF w) (immU w))
  | 0x1b#7 => decodeOpImm32 w
  | 0x23#7 => decodeStore w
  | 0x27#7 => decodeStoreFp w
  | 0x2f#7 => decodeAmo w
  | 0x33#7 => decodeOp w
  | 0x37#7 => some (.lui (rdF w) (immU w))
  | 0x3b#7 => decodeOp32 w
  | 0x43#7 => decodeMadd w
  | 0x47#7 => decodeMsub w
  | 0x4b#7 => decodeNmsub w
  | 0x4f#7 => decodeNmadd w
  | 0x53#7 => decodeOpFp w
  | 0x63#7 => decodeBranch w
  | 0x67#7 => if f3F w == 0x0#3 then some (.jalr (rdF w) (rs1F w) (immI w)) else none
  | 0x6f#7 => some (.jal (rdF w) (immJ w))
  | 0x73#7 => decodeSystem w
  | _ => none

/-! ### Fields of a 16-bit parcel (R724, R726) -/

def cOp (p : BitVec 16) : BitVec 2 := p.extractLsb' 0 2
def cF3 (p : BitVec 16) : BitVec 3 := p.extractLsb' 13 3
/-- The five-bit field p[11:7]. -/
def cR (p : BitVec 16) : RegNum := p.extractLsb' 7 5
/-- The five-bit field p[6:2]. -/
def cS (p : BitVec 16) : RegNum := p.extractLsb' 2 5
/-- The three-bit register field p[9:7]. -/
def cR1 (p : BitVec 16) : CRegNum := p.extractLsb' 7 3
/-- The three-bit register field p[4:2]. -/
def cR2 (p : BitVec 16) : CRegNum := p.extractLsb' 2 3
/-- p[12] : p[6:2], the six-bit immediate of the CI format. -/
def cImm6 (p : BitVec 16) : BitVec 6 := p.extractLsb' 12 1 ++ p.extractLsb' 2 5
/-- p[12:10] : p[6:5], the five offset bits of the CL and CS formats. -/
def cOff5 (p : BitVec 16) : BitVec 5 := p.extractLsb' 10 3 ++ p.extractLsb' 5 2
/-- p[12:7], the six offset bits of the CSS format. -/
def cOff6 (p : BitVec 16) : BitVec 6 := p.extractLsb' 7 6
/-- p[12:5], the eight immediate bits of the CIW format. -/
def cImm8 (p : BitVec 16) : BitVec 8 := p.extractLsb' 5 8
/-- p[12:10] : p[6:2], the eight offset bits of the CB format. -/
def cOff8 (p : BitVec 16) : BitVec 8 := p.extractLsb' 10 3 ++ p.extractLsb' 2 5
/-- p[12:2], the eleven offset bits of the CJ format. -/
def cOff11 (p : BitVec 16) : BitVec 11 := p.extractLsb' 2 11

/-! The scrambled immediates: `xOf` puts the bits of a field in order, `xField` puts them back. -/

/-- nzuimm[9:2] from nzuimm[5:4|9:6|2|3] (R761). -/
def addi4spnOf (b : BitVec 8) : BitVec 8 :=
  b.extractLsb' 2 4 ++ b.extractLsb' 6 2 ++ b.extractLsb' 0 1 ++ b.extractLsb' 1 1
def addi4spnField (v : BitVec 8) : BitVec 8 :=
  v.extractLsb' 2 2 ++ v.extractLsb' 4 4 ++ v.extractLsb' 0 1 ++ v.extractLsb' 1 1

/-- uimm[6:2] from uimm[5:3] and uimm[2|6] (R740). -/
def offWOf (b : BitVec 5) : BitVec 5 := b.extractLsb' 0 1 ++ b.extractLsb' 2 3 ++ b.extractLsb' 1 1
def offWField (v : BitVec 5) : BitVec 5 := v.extractLsb' 1 3 ++ v.extractLsb' 0 1 ++ v.extractLsb' 4 1

/-- uimm[7:3] from uimm[5:3] and uimm[7:6] (R741). -/
def offDOf (b : BitVec 5) : BitVec 5 := b.extractLsb' 0 2 ++ b.extractLsb' 2 3
def offDField (v : BitVec 5) : BitVec 5 := v.extractLsb' 0 3 ++ v.extractLsb' 3 2

/-- uimm[8:4] from uimm[5:4|8] and uimm[7:6] (R742). -/
def offQOf (b : BitVec 5) : BitVec 5 := b.extractLsb' 2 1 ++ b.extractLsb' 0 2 ++ b.extractLsb' 3 2
def offQField (v : BitVec 5) : BitVec 5 := v.extractLsb' 0 2 ++ v.extractLsb' 4 1 ++ v.extractLsb' 2 2

/-- uimm[7:2] from uimm[5] and uimm[4:2|7:6] (R730). -/
def spWOf (b : BitVec 6) : BitVec 6 := b.extractLsb' 0 2 ++ b.extractLsb' 5 1 ++ b.extractLsb' 2 3
def spWField (v : BitVec 6) : BitVec 6 := v.extractLsb' 3 1 ++ v.extractLsb' 0 3 ++ v.extractLsb' 4 2

/-- uimm[8:3] from uimm[5] and uimm[4:3|8:6] (R731). -/
def spDOf (b : BitVec 6) : BitVec 6 := b.extractLsb' 0 3 ++ b.extractLsb' 5 1 ++ b.extractLsb' 3 2
def spDField (v : BitVec 6) : BitVec 6 := v.extractLsb' 2 1 ++ v.extractLsb' 0 2 ++ v.extractLsb' 3 3

/-- uimm[9:4] from uimm[5] and uimm[4|9:6] (R732). -/
def spQOf (b : BitVec 6) : BitVec 6 := b.extractLsb' 0 4 ++ b.extractLsb' 5 1 ++ b.extractLsb' 4 1
def spQField (v : BitVec 6) : BitVec 6 := v.extractLsb' 1 1 ++ v.extractLsb' 0 1 ++ v.extractLsb' 2 4

/-- uimm[7:2] from uimm[5:2|7:6] (R735). -/
def ssWOf (b : BitVec 6) : BitVec 6 := b.extractLsb' 0 2 ++ b.extractLsb' 2 4
def ssWField (v : BitVec 6) : BitVec 6 := v.extractLsb' 0 4 ++ v.extractLsb' 4 2

/-- uimm[8:3] from uimm[5:3|8:6] (R736). -/
def ssDOf (b : BitVec 6) : BitVec 6 := b.extractLsb' 0 3 ++ b.extractLsb' 3 3
def ssDField (v : BitVec 6) : BitVec 6 := v.extractLsb' 0 3 ++ v.extractLsb' 3 3

/-- uimm[9:4] from uimm[5:4|9:6] (R737). -/
def ssQOf (b : BitVec 6) : BitVec 6 := b.extractLsb' 0 4 ++ b.extractLsb' 4 2
def ssQField (v : BitVec 6) : BitVec 6 := v.extractLsb' 0 2 ++ v.extractLsb' 2 4

/-- nzimm[9:4] from nzimm[9] and nzimm[4|6|8:7|5] (R760). -/
def addi16spOf (b : BitVec 6) : BitVec 6 :=
  b.extractLsb' 5 1 ++ b.extractLsb' 1 2 ++ b.extractLsb' 3 1 ++ b.extractLsb' 0 1 ++ b.extractLsb' 4 1
def addi16spField (v : BitVec 6) : BitVec 6 :=
  v.extractLsb' 5 1 ++ v.extractLsb' 0 1 ++ v.extractLsb' 2 1 ++ v.extractLsb' 3 2 ++ v.extractLsb' 1 1

/-- imm[11:1] from imm[11|4|9:8|10|6|7|3:1|5] (R750). -/
def cjOf (b : BitVec 11) : BitVec 11 :=
  b.extractLsb' 10 1 ++ b.extractLsb' 6 1 ++ b.extractLsb' 7 2 ++ b.extractLsb' 4 1 ++ b.extractLsb' 5 1 ++
    b.extractLsb' 0 1 ++ b.extractLsb' 9 1 ++ b.extractLsb' 1 3
def cjField (v : BitVec 11) : BitVec 11 :=
  v.extractLsb' 10 1 ++ v.extractLsb' 3 1 ++ v.extractLsb' 7 2 ++ v.extractLsb' 9 1 ++ v.extractLsb' 5 1 ++
    v.extractLsb' 6 1 ++ v.extractLsb' 0 3 ++ v.extractLsb' 4 1

/-- imm[8:1] from imm[8|4:3] and imm[7:6|2:1|5] (R754). -/
def cbOf (b : BitVec 8) : BitVec 8 :=
  b.extractLsb' 7 1 ++ b.extractLsb' 3 2 ++ b.extractLsb' 0 1 ++ b.extractLsb' 5 2 ++ b.extractLsb' 1 2
def cbField (v : BitVec 8) : BitVec 8 :=
  v.extractLsb' 7 1 ++ v.extractLsb' 2 2 ++ v.extractLsb' 5 2 ++ v.extractLsb' 0 2 ++ v.extractLsb' 4 1

/-! ### 16-bit parcels: the procedure of R727, quadrant by quadrant -/

/-- Quadrant C0. -/
def decodeC0 (x : Xlen) (p : BitVec 16) : Option Instr :=
  match cF3 p with
  | 0x0#3 => some (.cAddi4spn (cR2 p) (addi4spnOf (cImm8 p)))
  | 0x1#3 => some (.cFld (cR2 p) (cR1 p) (offDOf (cOff5 p)))
  | 0x2#3 => some (.cLw (cR2 p) (cR1 p) (offWOf (cOff5 p)))
  | 0x3#3 =>
    match x with
    | .rv32 => some (.cFlw (cR2 p) (cR1 p) (offWOf (cOff5 p)))
    | .rv64 => some (.cLd (cR2 p) (cR1 p) (offDOf (cOff5 p)))
  | 0x5#3 => some (.cFsd (cR2 p) (cR1 p) (offDOf (cOff5 p)))
  | 0x6#3 => some (.cSw (cR2 p) (cR1 p) (offWOf (cOff5 p)))
  | 0x7#3 =>
    match x with
    | .rv32 => some (.cFsw (cR2 p) (cR1 p) (offWOf (cOff5 p)))
    | .rv64 => some (.cSd (cR2 p) (cR1 p) (offDOf (cOff5 p)))
  | _ => none

/-- The register-register forms of quadrant C1: p[15:10] = 1000 11 and 1001 11. -/
def decodeCa (p : BitVec 16) : Option Instr :=
  match p.extractLsb' 12 1, p.extractLsb' 5 2 with
  | 0x0#1, 0x0#2 => some (.cSub (cR1 p) (cR2 p))
  | 0x0#1, 0x1#2 => some (.cXor (cR1 p) (cR2 p))
  | 0x0#1, 0x2#2 => some (.cOr (cR1 p) (cR2 p))
  | 0x0#1, 0x3#2 => some (.cAnd (cR1 p) (cR2 p))
  | 0x1#1, 0x0#2 => some (.cSubw (cR1 p) (cR2 p))
  | 0x1#1, 0x1#2 => some (.cAddw (cR1 p) (cR2 p))
  | _, _ => none

/-- Quadrant C1. -/
def decodeC1 (x : Xlen) (p : BitVec 16) : Option Instr :=
  match cF3 p with
  | 0x0#3 => if cR p = 0 then some (.cNop (cImm6 p)) else some (.cAddi (cR p) (cImm6 p))
  | 0x1#3 =>
    match x with
    | .rv32 => some (.cJal (cjOf (cOff11 p)))
    | .rv64 => some (.cAddiw (cR p) (cImm6 p))
  | 0x2#3 => some (.cLi (cR p) (cImm6 p))
  | 0x3#3 => if cR p = 2 then some (.cAddi16sp (addi16spOf (cImm6 p))) else some (.cLui (cR p) (cImm6 p))
  | 0x4#3 =>
    match p.extractLsb' 10 2 with
    | 0x0#2 => some (.cSrli (cR1 p) (cImm6 p))
    | 0x1#2 => some (.cSrai (cR1 p) (cImm6 p))
    | 0x2#2 => some (.cAndi (cR1 p) (cImm6 p))
    | _ => decodeCa p
  | 0x5#3 => some (.cJ (cjOf (cOff11 p)))
  | 0x6#3 => some (.cBeqz (cR1 p) (cbOf (cOff8 p)))
  | _ => some (.cBnez (cR1 p) (cbOf (cOff8 p)))

/-- Quadrant C2. -/
def decodeC2 (x : Xlen) (p : BitVec 16) : Option Instr :=
  match cF3 p with
  | 0x0#3 => some (.cSlli (cR p) (cImm6 p))
  | 0x1#3 => some (.cFldsp (cR p) (spDOf (cImm6 p)))
  | 0x2#3 => some (.cLwsp (cR p) (spWOf (cImm6 p)))
  | 0x3#3 =>
    match x with
    | .rv32 => some (.cFlwsp (cR p) (spWOf (cImm6 p)))
    | .rv64 => some (.cLdsp (cR p) (spDOf (cImm6 p)))
  | 0x4#3 =>
    match p.extractLsb' 12 1 with
    | 0x0#1 => if cS p = 0 then some (.cJr (cR p)) else some (.cMv (cR p) (cS p))
    | _ =>
      if cS p = 0 then (if cR p = 0 then some .cEbreak else some (.cJalr (cR p)))
      else some (.cAdd (cR p) (cS p))
  | 0x5#3 => some (.cFsdsp (cS p) (ssDOf (cOff6 p)))
  | 0x6#3 => some (.cSwsp (cS p) (ssWOf (cOff6 p)))
  | _ =>
    match x with
    | .rv32 => some (.cFswsp (cS p) (ssWOf (cOff6 p)))
    | .rv64 => some (.cSdsp (cS p) (ssDOf (cOff6 p)))

/-- The instruction a 16-bit parcel encodes at this XLEN, before the conditions of the row (R727). -/
def decode16Raw (x : Xlen) (p : BitVec 16) : Option Instr :=
  match cOp p with
  | 0x0#2 => decodeC0 x p
  | 0x1#2 => decodeC1 x p
  | 0x2#2 => decodeC2 x p
  | _ => none

/-! ### The decoder -/

/-- Keep an instruction only where its row exists in this configuration with these operands (R194). -/
def keepLegal (c : Config) (i : Instr) : Option Instr := if Machine.legalInstr c i then some i else none

/-- Decode: the instruction of a code in a configuration, `none` where no row applies (R194, R228). -/
def decode (c : Config) : Code → Option Instr
  | .half p => (decode16Raw c.xlen p).bind (keepLegal c)
  | .word w => (decode32Raw w).bind (keepLegal c)

/-- Two bytes as a parcel, the first the less significant whatever the data byte order (R90). -/
def parcel (b0 b1 : Byte) : BitVec 16 := b1 ++ b0

/-- Decode an instruction at the head of a list of bytes, with the bytes after it; `none` where the bytes are too few or
no row applies. With C absent every instruction has 32 bits (R192, R193). -/
def decodeBytes (c : Config) : List Byte → Option (Instr × List Byte)
  | b0 :: b1 :: rest =>
    if c.ext.c && (parcel b0 b1).extractLsb' 0 2 != 3#2 then
      (decode c (.half (parcel b0 b1))).map fun i => (i, rest)
    else match rest with
      | b2 :: b3 :: rest' => (decode c (.word (parcel b2 b3 ++ parcel b0 b1))).map fun i => (i, rest')
      | _ => none
  | _ => none

/-! ### The encoder -/

/-- R format (R195). -/
def encR (f7 : BitVec 7) (rs2 rs1 : RegNum) (f3 : BitVec 3) (rd : RegNum) (op : BitVec 7) : BitVec 32 :=
  f7 ++ rs2 ++ rs1 ++ f3 ++ rd ++ op

/-- I format (R195). -/
def encI (imm : BitVec 12) (rs1 : RegNum) (f3 : BitVec 3) (rd : RegNum) (op : BitVec 7) : BitVec 32 :=
  imm ++ rs1 ++ f3 ++ rd ++ op

/-- S format (R195). -/
def encS (imm : BitVec 12) (rs2 rs1 : RegNum) (f3 : BitVec 3) (op : BitVec 7) : BitVec 32 :=
  imm.extractLsb' 5 7 ++ rs2 ++ rs1 ++ f3 ++ imm.extractLsb' 0 5 ++ op

/-- B format, `imm` holding imm[12:1] (R196). -/
def encB (imm : BitVec 12) (rs2 rs1 : RegNum) (f3 : BitVec 3) (op : BitVec 7) : BitVec 32 :=
  imm.extractLsb' 11 1 ++ imm.extractLsb' 4 6 ++ rs2 ++ rs1 ++ f3 ++ imm.extractLsb' 0 4 ++ imm.extractLsb' 10 1 ++ op

/-- U format, `imm` holding imm[31:12] (R195). -/
def encU (imm : BitVec 20) (rd : RegNum) (op : BitVec 7) : BitVec 32 := imm ++ rd ++ op

/-- J format, `imm` holding imm[20:1] (R196). -/
def encJ (imm : BitVec 20) (rd : RegNum) (op : BitVec 7) : BitVec 32 :=
  imm.extractLsb' 19 1 ++ imm.extractLsb' 0 10 ++ imm.extractLsb' 10 1 ++ imm.extractLsb' 11 8 ++ rd ++ op

/-- R4 format (R197, R549). -/
def encR4 (rs3 : RegNum) (fmt : BitVec 2) (rs2 rs1 : RegNum) (rm : BitVec 3) (rd : RegNum) (op : BitVec 7) : BitVec 32 :=
  rs3 ++ fmt ++ rs2 ++ rs1 ++ rm ++ rd ++ op

/-- The AMO layout of the R format (R197, R432). -/
def encA (f5 : BitVec 5) (aq rl : Bool) (rs2 rs1 : RegNum) (f3 : BitVec 3) (rd : RegNum) : BitVec 32 :=
  f5 ++ BitVec.ofBool aq ++ BitVec.ofBool rl ++ rs2 ++ rs1 ++ f3 ++ rd ++ 0x2f#7

/-- CR format (R724). -/
def encCr (f4 : BitVec 4) (r s : RegNum) (op : BitVec 2) : BitVec 16 := f4 ++ r ++ s ++ op

/-- CI format (R724). -/
def encCi (f3 : BitVec 3) (imm : BitVec 6) (r : RegNum) (op : BitVec 2) : BitVec 16 :=
  f3 ++ imm.extractLsb' 5 1 ++ r ++ imm.extractLsb' 0 5 ++ op

/-- CSS format (R724). -/
def encCss (f3 : BitVec 3) (off : BitVec 6) (rs2 : RegNum) (op : BitVec 2) : BitVec 16 := f3 ++ off ++ rs2 ++ op

/-- CIW format (R724). -/
def encCiw (f3 : BitVec 3) (imm : BitVec 8) (rd : CRegNum) (op : BitVec 2) : BitVec 16 := f3 ++ imm ++ rd ++ op

/-- CL and CS formats (R724). -/
def encCl (f3 : BitVec 3) (off : BitVec 5) (rs1 r : CRegNum) (op : BitVec 2) : BitVec 16 :=
  f3 ++ off.extractLsb' 2 3 ++ rs1 ++ off.extractLsb' 0 2 ++ r ++ op

/-- CA format (R724). -/
def encCa (f6 : BitVec 6) (rd : CRegNum) (f2 : BitVec 2) (rs2 : CRegNum) (op : BitVec 2) : BitVec 16 :=
  f6 ++ rd ++ f2 ++ rs2 ++ op

/-- CB format of the branches (R724). -/
def encCb (f3 : BitVec 3) (off : BitVec 8) (rs1 : CRegNum) (op : BitVec 2) : BitVec 16 :=
  f3 ++ off.extractLsb' 5 3 ++ rs1 ++ off.extractLsb' 0 5 ++ op

/-- CB format of C.SRLI, C.SRAI and C.ANDI (R724, R763). -/
def encCs6 (f3 : BitVec 3) (f2 : BitVec 2) (imm : BitVec 6) (rd : CRegNum) (op : BitVec 2) : BitVec 16 :=
  f3 ++ imm.extractLsb' 5 1 ++ f2 ++ rd ++ imm.extractLsb' 0 5 ++ op

/-- CJ format (R724). -/
def encCj (f3 : BitVec 3) (off : BitVec 11) (op : BitVec 2) : BitVec 16 := f3 ++ off ++ op

/-- The code of an instruction: the inverse of the decoder on well-formed instructions. -/
def encode : Instr → Code
  | .lui rd imm => .word (encU imm rd 0x37#7)
  | .auipc rd imm => .word (encU imm rd 0x17#7)
  | .jal rd imm => .word (encJ imm rd 0x6f#7)
  | .jalr rd rs1 imm => .word (encI imm rs1 0x0#3 rd 0x67#7)
  | .beq rs1 rs2 imm => .word (encB imm rs2 rs1 0x0#3 0x63#7)
  | .bne rs1 rs2 imm => .word (encB imm rs2 rs1 0x1#3 0x63#7)
  | .blt rs1 rs2 imm => .word (encB imm rs2 rs1 0x4#3 0x63#7)
  | .bge rs1 rs2 imm => .word (encB imm rs2 rs1 0x5#3 0x63#7)
  | .bltu rs1 rs2 imm => .word (encB imm rs2 rs1 0x6#3 0x63#7)
  | .bgeu rs1 rs2 imm => .word (encB imm rs2 rs1 0x7#3 0x63#7)
  | .lb rd rs1 imm => .word (encI imm rs1 0x0#3 rd 0x03#7)
  | .lh rd rs1 imm => .word (encI imm rs1 0x1#3 rd 0x03#7)
  | .lw rd rs1 imm => .word (encI imm rs1 0x2#3 rd 0x03#7)
  | .lbu rd rs1 imm => .word (encI imm rs1 0x4#3 rd 0x03#7)
  | .lhu rd rs1 imm => .word (encI imm rs1 0x5#3 rd 0x03#7)
  | .sb rs2 rs1 imm => .word (encS imm rs2 rs1 0x0#3 0x23#7)
  | .sh rs2 rs1 imm => .word (encS imm rs2 rs1 0x1#3 0x23#7)
  | .sw rs2 rs1 imm => .word (encS imm rs2 rs1 0x2#3 0x23#7)
  | .addi rd rs1 imm => .word (encI imm rs1 0x0#3 rd 0x13#7)
  | .slti rd rs1 imm => .word (encI imm rs1 0x2#3 rd 0x13#7)
  | .sltiu rd rs1 imm => .word (encI imm rs1 0x3#3 rd 0x13#7)
  | .xori rd rs1 imm => .word (encI imm rs1 0x4#3 rd 0x13#7)
  | .ori rd rs1 imm => .word (encI imm rs1 0x6#3 rd 0x13#7)
  | .andi rd rs1 imm => .word (encI imm rs1 0x7#3 rd 0x13#7)
  | .slli rd rs1 shamt => .word (encI (0x00#6 ++ shamt) rs1 0x1#3 rd 0x13#7)
  | .srli rd rs1 shamt => .word (encI (0x00#6 ++ shamt) rs1 0x5#3 rd 0x13#7)
  | .srai rd rs1 shamt => .word (encI (0x10#6 ++ shamt) rs1 0x5#3 rd 0x13#7)
  | .add rd rs1 rs2 => .word (encR 0x00#7 rs2 rs1 0x0#3 rd 0x33#7)
  | .sub rd rs1 rs2 => .word (encR 0x20#7 rs2 rs1 0x0#3 rd 0x33#7)
  | .sll rd rs1 rs2 => .word (encR 0x00#7 rs2 rs1 0x1#3 rd 0x33#7)
  | .slt rd rs1 rs2 => .word (encR 0x00#7 rs2 rs1 0x2#3 rd 0x33#7)
  | .sltu rd rs1 rs2 => .word (encR 0x00#7 rs2 rs1 0x3#3 rd 0x33#7)
  | .xor rd rs1 rs2 => .word (encR 0x00#7 rs2 rs1 0x4#3 rd 0x33#7)
  | .srl rd rs1 rs2 => .word (encR 0x00#7 rs2 rs1 0x5#3 rd 0x33#7)
  | .sra rd rs1 rs2 => .word (encR 0x20#7 rs2 rs1 0x5#3 rd 0x33#7)
  | .or rd rs1 rs2 => .word (encR 0x00#7 rs2 rs1 0x6#3 rd 0x33#7)
  | .and rd rs1 rs2 => .word (encR 0x00#7 rs2 rs1 0x7#3 rd 0x33#7)
  | .fenceTso rs1 rd => .word (encI 0x833#12 rs1 0x0#3 rd 0x0f#7)
  | .fence fm pred succ rs1 rd => .word (encI (fm ++ pred ++ succ) rs1 0x0#3 rd 0x0f#7)
  | .ecall => .word 0x00000073
  | .ebreak => .word 0x00100073
  | .lwu rd rs1 imm => .word (encI imm rs1 0x6#3 rd 0x03#7)
  | .ld rd rs1 imm => .word (encI imm rs1 0x3#3 rd 0x03#7)
  | .sd rs2 rs1 imm => .word (encS imm rs2 rs1 0x3#3 0x23#7)
  | .addiw rd rs1 imm => .word (encI imm rs1 0x0#3 rd 0x1b#7)
  | .slliw rd rs1 shamt => .word (encR 0x00#7 shamt rs1 0x1#3 rd 0x1b#7)
  | .srliw rd rs1 shamt => .word (encR 0x00#7 shamt rs1 0x5#3 rd 0x1b#7)
  | .sraiw rd rs1 shamt => .word (encR 0x20#7 shamt rs1 0x5#3 rd 0x1b#7)
  | .addw rd rs1 rs2 => .word (encR 0x00#7 rs2 rs1 0x0#3 rd 0x3b#7)
  | .subw rd rs1 rs2 => .word (encR 0x20#7 rs2 rs1 0x0#3 rd 0x3b#7)
  | .sllw rd rs1 rs2 => .word (encR 0x00#7 rs2 rs1 0x1#3 rd 0x3b#7)
  | .srlw rd rs1 rs2 => .word (encR 0x00#7 rs2 rs1 0x5#3 rd 0x3b#7)
  | .sraw rd rs1 rs2 => .word (encR 0x20#7 rs2 rs1 0x5#3 rd 0x3b#7)
  | .fenceI rd rs1 imm => .word (encI imm rs1 0x1#3 rd 0x0f#7)
  | .csrrw rd csr rs1 => .word (encI csr rs1 0x1#3 rd 0x73#7)
  | .csrrs rd csr rs1 => .word (encI csr rs1 0x2#3 rd 0x73#7)
  | .csrrc rd csr rs1 => .word (encI csr rs1 0x3#3 rd 0x73#7)
  | .csrrwi rd csr uimm => .word (encI csr uimm 0x5#3 rd 0x73#7)
  | .csrrsi rd csr uimm => .word (encI csr uimm 0x6#3 rd 0x73#7)
  | .csrrci rd csr uimm => .word (encI csr uimm 0x7#3 rd 0x73#7)
  | .mul rd rs1 rs2 => .word (encR 0x01#7 rs2 rs1 0x0#3 rd 0x33#7)
  | .mulh rd rs1 rs2 => .word (encR 0x01#7 rs2 rs1 0x1#3 rd 0x33#7)
  | .mulhsu rd rs1 rs2 => .word (encR 0x01#7 rs2 rs1 0x2#3 rd 0x33#7)
  | .mulhu rd rs1 rs2 => .word (encR 0x01#7 rs2 rs1 0x3#3 rd 0x33#7)
  | .div rd rs1 rs2 => .word (encR 0x01#7 rs2 rs1 0x4#3 rd 0x33#7)
  | .divu rd rs1 rs2 => .word (encR 0x01#7 rs2 rs1 0x5#3 rd 0x33#7)
  | .rem rd rs1 rs2 => .word (encR 0x01#7 rs2 rs1 0x6#3 rd 0x33#7)
  | .remu rd rs1 rs2 => .word (encR 0x01#7 rs2 rs1 0x7#3 rd 0x33#7)
  | .mulw rd rs1 rs2 => .word (encR 0x01#7 rs2 rs1 0x0#3 rd 0x3b#7)
  | .divw rd rs1 rs2 => .word (encR 0x01#7 rs2 rs1 0x4#3 rd 0x3b#7)
  | .divuw rd rs1 rs2 => .word (encR 0x01#7 rs2 rs1 0x5#3 rd 0x3b#7)
  | .remw rd rs1 rs2 => .word (encR 0x01#7 rs2 rs1 0x6#3 rd 0x3b#7)
  | .remuw rd rs1 rs2 => .word (encR 0x01#7 rs2 rs1 0x7#3 rd 0x3b#7)
  | .lrW rd rs1 aq rl => .word (encA 0x02#5 aq rl 0#5 rs1 0x2#3 rd)
  | .scW rd rs1 rs2 aq rl => .word (encA 0x03#5 aq rl rs2 rs1 0x2#3 rd)
  | .amoswapW rd rs1 rs2 aq rl => .word (encA 0x01#5 aq rl rs2 rs1 0x2#3 rd)
  | .amoaddW rd rs1 rs2 aq rl => .word (encA 0x00#5 aq rl rs2 rs1 0x2#3 rd)
  | .amoxorW rd rs1 rs2 aq rl => .word (encA 0x04#5 aq rl rs2 rs1 0x2#3 rd)
  | .amoandW rd rs1 rs2 aq rl => .word (encA 0x0c#5 aq rl rs2 rs1 0x2#3 rd)
  | .amoorW rd rs1 rs2 aq rl => .word (encA 0x08#5 aq rl rs2 rs1 0x2#3 rd)
  | .amominW rd rs1 rs2 aq rl => .word (encA 0x10#5 aq rl rs2 rs1 0x2#3 rd)
  | .amomaxW rd rs1 rs2 aq rl => .word (encA 0x14#5 aq rl rs2 rs1 0x2#3 rd)
  | .amominuW rd rs1 rs2 aq rl => .word (encA 0x18#5 aq rl rs2 rs1 0x2#3 rd)
  | .amomaxuW rd rs1 rs2 aq rl => .word (encA 0x1c#5 aq rl rs2 rs1 0x2#3 rd)
  | .lrD rd rs1 aq rl => .word (encA 0x02#5 aq rl 0#5 rs1 0x3#3 rd)
  | .scD rd rs1 rs2 aq rl => .word (encA 0x03#5 aq rl rs2 rs1 0x3#3 rd)
  | .amoswapD rd rs1 rs2 aq rl => .word (encA 0x01#5 aq rl rs2 rs1 0x3#3 rd)
  | .amoaddD rd rs1 rs2 aq rl => .word (encA 0x00#5 aq rl rs2 rs1 0x3#3 rd)
  | .amoxorD rd rs1 rs2 aq rl => .word (encA 0x04#5 aq rl rs2 rs1 0x3#3 rd)
  | .amoandD rd rs1 rs2 aq rl => .word (encA 0x0c#5 aq rl rs2 rs1 0x3#3 rd)
  | .amoorD rd rs1 rs2 aq rl => .word (encA 0x08#5 aq rl rs2 rs1 0x3#3 rd)
  | .amominD rd rs1 rs2 aq rl => .word (encA 0x10#5 aq rl rs2 rs1 0x3#3 rd)
  | .amomaxD rd rs1 rs2 aq rl => .word (encA 0x14#5 aq rl rs2 rs1 0x3#3 rd)
  | .amominuD rd rs1 rs2 aq rl => .word (encA 0x18#5 aq rl rs2 rs1 0x3#3 rd)
  | .amomaxuD rd rs1 rs2 aq rl => .word (encA 0x1c#5 aq rl rs2 rs1 0x3#3 rd)
  | .flw rd rs1 imm => .word (encI imm rs1 0x2#3 rd 0x07#7)
  | .fsw rs2 rs1 imm => .word (encS imm rs2 rs1 0x2#3 0x27#7)
  | .fmaddS rd rs1 rs2 rs3 rm => .word (encR4 rs3 0x0#2 rs2 rs1 rm rd 0x43#7)
  | .fmsubS rd rs1 rs2 rs3 rm => .word (encR4 rs3 0x0#2 rs2 rs1 rm rd 0x47#7)
  | .fnmsubS rd rs1 rs2 rs3 rm => .word (encR4 rs3 0x0#2 rs2 rs1 rm rd 0x4b#7)
  | .fnmaddS rd rs1 rs2 rs3 rm => .word (encR4 rs3 0x0#2 rs2 rs1 rm rd 0x4f#7)
  | .faddS rd rs1 rs2 rm => .word (encR 0x00#7 rs2 rs1 rm rd 0x53#7)
  | .fsubS rd rs1 rs2 rm => .word (encR 0x04#7 rs2 rs1 rm rd 0x53#7)
  | .fmulS rd rs1 rs2 rm => .word (encR 0x08#7 rs2 rs1 rm rd 0x53#7)
  | .fdivS rd rs1 rs2 rm => .word (encR 0x0c#7 rs2 rs1 rm rd 0x53#7)
  | .fsqrtS rd rs1 rm => .word (encR 0x2c#7 0x0#5 rs1 rm rd 0x53#7)
  | .fsgnjS rd rs1 rs2 => .word (encR 0x10#7 rs2 rs1 0x0#3 rd 0x53#7)
  | .fsgnjnS rd rs1 rs2 => .word (encR 0x10#7 rs2 rs1 0x1#3 rd 0x53#7)
  | .fsgnjxS rd rs1 rs2 => .word (encR 0x10#7 rs2 rs1 0x2#3 rd 0x53#7)
  | .fminS rd rs1 rs2 => .word (encR 0x14#7 rs2 rs1 0x0#3 rd 0x53#7)
  | .fmaxS rd rs1 rs2 => .word (encR 0x14#7 rs2 rs1 0x1#3 rd 0x53#7)
  | .feqS rd rs1 rs2 => .word (encR 0x50#7 rs2 rs1 0x2#3 rd 0x53#7)
  | .fltS rd rs1 rs2 => .word (encR 0x50#7 rs2 rs1 0x1#3 rd 0x53#7)
  | .fleS rd rs1 rs2 => .word (encR 0x50#7 rs2 rs1 0x0#3 rd 0x53#7)
  | .fclassS rd rs1 => .word (encR 0x70#7 0x0#5 rs1 0x1#3 rd 0x53#7)
  | .fcvtWS rd rs1 rm => .word (encR 0x60#7 0x0#5 rs1 rm rd 0x53#7)
  | .fcvtWuS rd rs1 rm => .word (encR 0x60#7 0x1#5 rs1 rm rd 0x53#7)
  | .fcvtSW rd rs1 rm => .word (encR 0x68#7 0x0#5 rs1 rm rd 0x53#7)
  | .fcvtSWu rd rs1 rm => .word (encR 0x68#7 0x1#5 rs1 rm rd 0x53#7)
  | .fmvXW rd rs1 => .word (encR 0x70#7 0x0#5 rs1 0x0#3 rd 0x53#7)
  | .fmvWX rd rs1 => .word (encR 0x78#7 0x0#5 rs1 0x0#3 rd 0x53#7)
  | .fcvtLS rd rs1 rm => .word (encR 0x60#7 0x2#5 rs1 rm rd 0x53#7)
  | .fcvtLuS rd rs1 rm => .word (encR 0x60#7 0x3#5 rs1 rm rd 0x53#7)
  | .fcvtSL rd rs1 rm => .word (encR 0x68#7 0x2#5 rs1 rm rd 0x53#7)
  | .fcvtSLu rd rs1 rm => .word (encR 0x68#7 0x3#5 rs1 rm rd 0x53#7)
  | .fld rd rs1 imm => .word (encI imm rs1 0x3#3 rd 0x07#7)
  | .fsd rs2 rs1 imm => .word (encS imm rs2 rs1 0x3#3 0x27#7)
  | .fmaddD rd rs1 rs2 rs3 rm => .word (encR4 rs3 0x1#2 rs2 rs1 rm rd 0x43#7)
  | .fmsubD rd rs1 rs2 rs3 rm => .word (encR4 rs3 0x1#2 rs2 rs1 rm rd 0x47#7)
  | .fnmsubD rd rs1 rs2 rs3 rm => .word (encR4 rs3 0x1#2 rs2 rs1 rm rd 0x4b#7)
  | .fnmaddD rd rs1 rs2 rs3 rm => .word (encR4 rs3 0x1#2 rs2 rs1 rm rd 0x4f#7)
  | .faddD rd rs1 rs2 rm => .word (encR 0x01#7 rs2 rs1 rm rd 0x53#7)
  | .fsubD rd rs1 rs2 rm => .word (encR 0x05#7 rs2 rs1 rm rd 0x53#7)
  | .fmulD rd rs1 rs2 rm => .word (encR 0x09#7 rs2 rs1 rm rd 0x53#7)
  | .fdivD rd rs1 rs2 rm => .word (encR 0x0d#7 rs2 rs1 rm rd 0x53#7)
  | .fsqrtD rd rs1 rm => .word (encR 0x2d#7 0x0#5 rs1 rm rd 0x53#7)
  | .fsgnjD rd rs1 rs2 => .word (encR 0x11#7 rs2 rs1 0x0#3 rd 0x53#7)
  | .fsgnjnD rd rs1 rs2 => .word (encR 0x11#7 rs2 rs1 0x1#3 rd 0x53#7)
  | .fsgnjxD rd rs1 rs2 => .word (encR 0x11#7 rs2 rs1 0x2#3 rd 0x53#7)
  | .fminD rd rs1 rs2 => .word (encR 0x15#7 rs2 rs1 0x0#3 rd 0x53#7)
  | .fmaxD rd rs1 rs2 => .word (encR 0x15#7 rs2 rs1 0x1#3 rd 0x53#7)
  | .fcvtSD rd rs1 rm => .word (encR 0x20#7 0x1#5 rs1 rm rd 0x53#7)
  | .fcvtDS rd rs1 rm => .word (encR 0x21#7 0x0#5 rs1 rm rd 0x53#7)
  | .feqD rd rs1 rs2 => .word (encR 0x51#7 rs2 rs1 0x2#3 rd 0x53#7)
  | .fltD rd rs1 rs2 => .word (encR 0x51#7 rs2 rs1 0x1#3 rd 0x53#7)
  | .fleD rd rs1 rs2 => .word (encR 0x51#7 rs2 rs1 0x0#3 rd 0x53#7)
  | .fclassD rd rs1 => .word (encR 0x71#7 0x0#5 rs1 0x1#3 rd 0x53#7)
  | .fcvtWD rd rs1 rm => .word (encR 0x61#7 0x0#5 rs1 rm rd 0x53#7)
  | .fcvtWuD rd rs1 rm => .word (encR 0x61#7 0x1#5 rs1 rm rd 0x53#7)
  | .fcvtDW rd rs1 rm => .word (encR 0x69#7 0x0#5 rs1 rm rd 0x53#7)
  | .fcvtDWu rd rs1 rm => .word (encR 0x69#7 0x1#5 rs1 rm rd 0x53#7)
  | .fcvtLD rd rs1 rm => .word (encR 0x61#7 0x2#5 rs1 rm rd 0x53#7)
  | .fcvtLuD rd rs1 rm => .word (encR 0x61#7 0x3#5 rs1 rm rd 0x53#7)
  | .fcvtDL rd rs1 rm => .word (encR 0x69#7 0x2#5 rs1 rm rd 0x53#7)
  | .fcvtDLu rd rs1 rm => .word (encR 0x69#7 0x3#5 rs1 rm rd 0x53#7)
  | .fmvXD rd rs1 => .word (encR 0x71#7 0x0#5 rs1 0x0#3 rd 0x53#7)
  | .fmvDX rd rs1 => .word (encR 0x79#7 0x0#5 rs1 0x0#3 rd 0x53#7)
  | .flq rd rs1 imm => .word (encI imm rs1 0x4#3 rd 0x07#7)
  | .fsq rs2 rs1 imm => .word (encS imm rs2 rs1 0x4#3 0x27#7)
  | .fmaddQ rd rs1 rs2 rs3 rm => .word (encR4 rs3 0x3#2 rs2 rs1 rm rd 0x43#7)
  | .fmsubQ rd rs1 rs2 rs3 rm => .word (encR4 rs3 0x3#2 rs2 rs1 rm rd 0x47#7)
  | .fnmsubQ rd rs1 rs2 rs3 rm => .word (encR4 rs3 0x3#2 rs2 rs1 rm rd 0x4b#7)
  | .fnmaddQ rd rs1 rs2 rs3 rm => .word (encR4 rs3 0x3#2 rs2 rs1 rm rd 0x4f#7)
  | .faddQ rd rs1 rs2 rm => .word (encR 0x03#7 rs2 rs1 rm rd 0x53#7)
  | .fsubQ rd rs1 rs2 rm => .word (encR 0x07#7 rs2 rs1 rm rd 0x53#7)
  | .fmulQ rd rs1 rs2 rm => .word (encR 0x0b#7 rs2 rs1 rm rd 0x53#7)
  | .fdivQ rd rs1 rs2 rm => .word (encR 0x0f#7 rs2 rs1 rm rd 0x53#7)
  | .fsqrtQ rd rs1 rm => .word (encR 0x2f#7 0x0#5 rs1 rm rd 0x53#7)
  | .fsgnjQ rd rs1 rs2 => .word (encR 0x13#7 rs2 rs1 0x0#3 rd 0x53#7)
  | .fsgnjnQ rd rs1 rs2 => .word (encR 0x13#7 rs2 rs1 0x1#3 rd 0x53#7)
  | .fsgnjxQ rd rs1 rs2 => .word (encR 0x13#7 rs2 rs1 0x2#3 rd 0x53#7)
  | .fminQ rd rs1 rs2 => .word (encR 0x17#7 rs2 rs1 0x0#3 rd 0x53#7)
  | .fmaxQ rd rs1 rs2 => .word (encR 0x17#7 rs2 rs1 0x1#3 rd 0x53#7)
  | .fcvtSQ rd rs1 rm => .word (encR 0x20#7 0x3#5 rs1 rm rd 0x53#7)
  | .fcvtQS rd rs1 rm => .word (encR 0x23#7 0x0#5 rs1 rm rd 0x53#7)
  | .fcvtDQ rd rs1 rm => .word (encR 0x21#7 0x3#5 rs1 rm rd 0x53#7)
  | .fcvtQD rd rs1 rm => .word (encR 0x23#7 0x1#5 rs1 rm rd 0x53#7)
  | .feqQ rd rs1 rs2 => .word (encR 0x53#7 rs2 rs1 0x2#3 rd 0x53#7)
  | .fltQ rd rs1 rs2 => .word (encR 0x53#7 rs2 rs1 0x1#3 rd 0x53#7)
  | .fleQ rd rs1 rs2 => .word (encR 0x53#7 rs2 rs1 0x0#3 rd 0x53#7)
  | .fclassQ rd rs1 => .word (encR 0x73#7 0x0#5 rs1 0x1#3 rd 0x53#7)
  | .fcvtWQ rd rs1 rm => .word (encR 0x63#7 0x0#5 rs1 rm rd 0x53#7)
  | .fcvtWuQ rd rs1 rm => .word (encR 0x63#7 0x1#5 rs1 rm rd 0x53#7)
  | .fcvtQW rd rs1 rm => .word (encR 0x6b#7 0x0#5 rs1 rm rd 0x53#7)
  | .fcvtQWu rd rs1 rm => .word (encR 0x6b#7 0x1#5 rs1 rm rd 0x53#7)
  | .fcvtLQ rd rs1 rm => .word (encR 0x63#7 0x2#5 rs1 rm rd 0x53#7)
  | .fcvtLuQ rd rs1 rm => .word (encR 0x63#7 0x3#5 rs1 rm rd 0x53#7)
  | .fcvtQL rd rs1 rm => .word (encR 0x6b#7 0x2#5 rs1 rm rd 0x53#7)
  | .fcvtQLu rd rs1 rm => .word (encR 0x6b#7 0x3#5 rs1 rm rd 0x53#7)
  | .cAddi4spn rd imm => .half (encCiw 0x0#3 (addi4spnField imm) rd 0x0#2)
  | .cFld rd rs1 off => .half (encCl 0x1#3 (offDField off) rs1 rd 0x0#2)
  | .cLq rd rs1 off => .half (encCl 0x1#3 (offQField off) rs1 rd 0x0#2)
  | .cLw rd rs1 off => .half (encCl 0x2#3 (offWField off) rs1 rd 0x0#2)
  | .cFlw rd rs1 off => .half (encCl 0x3#3 (offWField off) rs1 rd 0x0#2)
  | .cLd rd rs1 off => .half (encCl 0x3#3 (offDField off) rs1 rd 0x0#2)
  | .cFsd rs2 rs1 off => .half (encCl 0x5#3 (offDField off) rs1 rs2 0x0#2)
  | .cSq rs2 rs1 off => .half (encCl 0x5#3 (offQField off) rs1 rs2 0x0#2)
  | .cSw rs2 rs1 off => .half (encCl 0x6#3 (offWField off) rs1 rs2 0x0#2)
  | .cFsw rs2 rs1 off => .half (encCl 0x7#3 (offWField off) rs1 rs2 0x0#2)
  | .cSd rs2 rs1 off => .half (encCl 0x7#3 (offDField off) rs1 rs2 0x0#2)
  | .cNop imm => .half (encCi 0x0#3 imm 0#5 0x1#2)
  | .cAddi rd imm => .half (encCi 0x0#3 imm rd 0x1#2)
  | .cJal off => .half (encCj 0x1#3 (cjField off) 0x1#2)
  | .cAddiw rd imm => .half (encCi 0x1#3 imm rd 0x1#2)
  | .cLi rd imm => .half (encCi 0x2#3 imm rd 0x1#2)
  | .cAddi16sp imm => .half (encCi 0x3#3 (addi16spField imm) 2#5 0x1#2)
  | .cLui rd imm => .half (encCi 0x3#3 imm rd 0x1#2)
  | .cSrli rd shamt => .half (encCs6 0x4#3 0x0#2 shamt rd 0x1#2)
  | .cSrai rd shamt => .half (encCs6 0x4#3 0x1#2 shamt rd 0x1#2)
  | .cAndi rd imm => .half (encCs6 0x4#3 0x2#2 imm rd 0x1#2)
  | .cSub rd rs2 => .half (encCa 0x23#6 rd 0x0#2 rs2 0x1#2)
  | .cXor rd rs2 => .half (encCa 0x23#6 rd 0x1#2 rs2 0x1#2)
  | .cOr rd rs2 => .half (encCa 0x23#6 rd 0x2#2 rs2 0x1#2)
  | .cAnd rd rs2 => .half (encCa 0x23#6 rd 0x3#2 rs2 0x1#2)
  | .cSubw rd rs2 => .half (encCa 0x27#6 rd 0x0#2 rs2 0x1#2)
  | .cAddw rd rs2 => .half (encCa 0x27#6 rd 0x1#2 rs2 0x1#2)
  | .cJ off => .half (encCj 0x5#3 (cjField off) 0x1#2)
  | .cBeqz rs1 off => .half (encCb 0x6#3 (cbField off) rs1 0x1#2)
  | .cBnez rs1 off => .half (encCb 0x7#3 (cbField off) rs1 0x1#2)
  | .cSlli rd shamt => .half (encCi 0x0#3 shamt rd 0x2#2)
  | .cFldsp rd off => .half (encCi 0x1#3 (spDField off) rd 0x2#2)
  | .cLqsp rd off => .half (encCi 0x1#3 (spQField off) rd 0x2#2)
  | .cLwsp rd off => .half (encCi 0x2#3 (spWField off) rd 0x2#2)
  | .cFlwsp rd off => .half (encCi 0x3#3 (spWField off) rd 0x2#2)
  | .cLdsp rd off => .half (encCi 0x3#3 (spDField off) rd 0x2#2)
  | .cJr rs1 => .half (encCr 0x8#4 rs1 0#5 0x2#2)
  | .cMv rd rs2 => .half (encCr 0x8#4 rd rs2 0x2#2)
  | .cEbreak => .half 0x9002
  | .cJalr rs1 => .half (encCr 0x9#4 rs1 0#5 0x2#2)
  | .cAdd rd rs2 => .half (encCr 0x9#4 rd rs2 0x2#2)
  | .cFsdsp rs2 off => .half (encCss 0x5#3 (ssDField off) rs2 0x2#2)
  | .cSqsp rs2 off => .half (encCss 0x5#3 (ssQField off) rs2 0x2#2)
  | .cSwsp rs2 off => .half (encCss 0x6#3 (ssWField off) rs2 0x2#2)
  | .cFswsp rs2 off => .half (encCss 0x7#3 (ssWField off) rs2 0x2#2)
  | .cSdsp rs2 off => .half (encCss 0x7#3 (ssDField off) rs2 0x2#2)

/-- A parcel's two bytes, the less significant first (R90). -/
def parcelBytes (p : BitVec 16) : List Byte := [p.extractLsb' 0 8, p.extractLsb' 8 8]

/-- The bytes of an instruction in increasing address order (R90). -/
def Code.bytes : Code → List Byte
  | .half p => parcelBytes p
  | .word w => parcelBytes (w.extractLsb' 0 16) ++ parcelBytes (w.extractLsb' 16 16)

/-- Every extension of the spec that can be present together, without E (D2): what `decodeTableWord` decodes with. -/
def everyExt : Ext :=
  { e := false, m := true, a := true, f := true, d := true, q := true, c := true, zicsr := true, zifencei := true,
    counters := true, zam := true, ztso := true }

/-- A configuration used for decoding only. -/
def decodeConfig (x : Xlen) : Config :=
  { xlen := x, ext := everyExt, endian := .little, misaligned := .trap, misalignedAtomic := .addressMisaligned,
    envTrap := .terminate, envCall := .terminate, envBreak := .terminate, regions := [],
    reservationPolicy := .granule 6, countersAccessible := true, hpmImplemented := 0, hpmWidth := 64,
    ppoRswExtra := false, timePeriod := 1 }

/-- The instruction the decoder reads from an opcode-table row's bits: at XLEN = 64, and where no row of RV64 applies at
XLEN = 32 (some parcels are one instruction on RV32 and another on RV64, R723). -/
def decodeTableWord (nbits w : Nat) : Option Instr :=
  let read (x : Xlen) : Option Instr :=
    if nbits ≤ 16 then (decodeBytes (decodeConfig x) (parcelBytes (BitVec.ofNat 16 w))).map Prod.fst
    else (decodeBytes (decodeConfig x) (Code.word (BitVec.ofNat 32 w)).bytes).map Prod.fst
  (read .rv64).or (read .rv32)

end Sys2Proof
end

