-- ==== Sys2Proof/Machine/State.lean ====
section
/-!
DEFINITION. The state of one hart, its memory and its configuration, as plain data, and the state after reset.

What is architectural is what spec/10_state.md names; `draws`, `io` and `stale` are how the model holds what the spec
leaves open (log 9, log 10) or names as hidden state (R71).
-/
namespace Sys2Proof.Machine

/-- The nine exception causes with the information each carries (R801, Table R808-T). -/
inductive Cause
  | instructionAddressMisaligned (target : Word)
  | instructionAccessFault (addr : Word)
  | illegalInstruction (code : Code)
  | breakpoint
  | loadAddressMisaligned (addr : Word)
  | loadAccessFault (addr : Word)
  | storeAMOAddressMisaligned (addr : Word)
  | storeAMOAccessFault (addr : Word)
  | environmentCall
  deriving DecidableEq, Repr, Inhabited

/-- The record a raising instruction hands to the environment (R805). -/
structure TrapRecord where
  hart  : Nat
  cause : Cause
  pc    : Word
  deriving DecidableEq, Repr, Inhabited

/-- What a terminated execution reports (R827): the trap record, or a value the environment chose. -/
inductive Report
  | record (t : TrapRecord)
  | value (n : Nat)
  deriving DecidableEq, Repr, Inhabited

/-- A hart is running or terminated, nothing else (R834, D31). -/
inductive RunStatus
  | running
  | terminated (report : Report)
  deriving DecidableEq, Repr, Inhabited

/-- The load reservation an LR registers (R70, R434): a set of bytes, and the bytes the LR read. -/
structure Reservation where
  bytes  : List ByteRange
  lrAddr : Nat
  lrSize : Nat
  deriving DecidableEq, Repr, Inhabited

/-- Memory: (address, byte) pairs, addresses strictly rising, no byte equal to what an unlisted address reads as. -/
abbrev Memory := List Host.Cell

/-- The state of the machine. -/
structure State where
  /-- the parameters of spec/92_eei_decisions.md; no step changes them -/
  cfg         : Config
  /-- x0 to x31, the low XLEN bits of each (R30); entry 0 is never read -/
  x           : Vector Word 32
  /-- the address of the current instruction, low XLEN bits (R35) -/
  pc          : Word
  /-- f0 to f31, the low FLEN bits of each (R50) -/
  f           : Vector FWord 32
  /-- fcsr (R42): bits 7:5 frm, 4:0 fflags, the others 0 (R43) -/
  fcsr        : BitVec 32
  /-- the 64-bit counters behind the counter CSRs (R46, R47) -/
  cycle       : BitVec 64
  time        : BitVec 64
  instret     : BitVec 64
  /-- hpmcounter3 to hpmcounter31, entry i for counter i + 3 (R47) -/
  hpm         : Vector (BitVec 64) 29
  /-- the load reservation (R70) -/
  reservation : Option Reservation
  /-- main memory (R60) -/
  mem         : Memory
  /-- the fetch view (R71, R120): for a byte overwritten since the last FENCE.I, the values it held before, newest first;
  a fetch may see any of them or the current one -/
  stale       : List Host.Cell
  /-- MODEL's own: the explicit accesses to devices so far, newest first (R104, log 9) -/
  io          : List IoEvent
  /-- running or terminated (R827) -/
  status      : RunStatus
  /-- MODEL's own: how many steps have drawn free values (log 10) -/
  draws       : Nat
  /-- MODEL's own: which hart this is (R835): no instruction reads it; a trap record names it, and free values are drawn
  for it (log 28) -/
  hart        : Nat
  deriving DecidableEq, Repr

/-- Why a step stops without a next state. -/
inductive Fault
  /-- Raised by `step` on a terminated machine: after a fatal trap no instruction executes (R827). Safe: the execution is
  over on the hardware too. -/
  | terminated
  deriving DecidableEq, Repr

/-- Why the model refuses. -/
inductive Refusal
  /-- Raised by an arm of `exec` whose instruction has no meaning yet. Safe: nothing is claimed of it. -/
  | notModelled (mnemonic : String)
  /-- Raised by `step` in a configuration the spec does not admit (R4, U17, U18, D2). Safe: the spec refuses it too. -/
  | configuration
  /-- Raised by `step` where the pc is not a multiple of IALIGN/8: the model refuses to start there, and no instruction
  leads there (R37, R862, U80, D9). Safe: the spec refuses it too. -/
  | misalignedPc
  deriving DecidableEq, Repr

/-- What an address that no entry lists reads as. DESIGN CHOICE, unsafe (log 5): INIT_MEM is a parameter of the spec
(R75, D8); the model starts from zeros. -/
def unlistedByte : Byte := 0

/-- The configuration after reset. DESIGN CHOICE, unsafe (log 6, log 7, log 8): XLEN, EXT and the address map are
parameters of the spec (D1, D2, D10, D13); everything else is the spec's default of 92_eei_decisions.md. -/
def resetConfig : Config :=
  { xlen := .rv64
    ext := { e := false, m := true, a := true, f := true, d := true, q := true, c := true, zicsr := true,
             zifencei := true, counters := true, zam := false, ztso := false }
    endian := .little
    misaligned := .trap
    misalignedAtomic := .addressMisaligned
    envTrap := .terminate
    envCall := .terminate
    envBreak := .terminate
    regions := [{ base := 0, size := 2 ^ 64, kind := .main, fetch := true, read := true, write := true,
                  widths := [1, 2, 4, 8, 16], amos := [.swap, .add, .xor, .and, .or, .min, .max, .minu, .maxu],
                  lrsc := true, eventual := true, emulable := false, strong := false, channel := 0 }]
    reservationPolicy := .granule 6
    countersAccessible := true
    hpmImplemented := 0
    hpmWidth := 64
    ppoRswExtra := false
    timePeriod := 1000000 }

/-- The machine right after reset (R75, R862). The source gives only x0 = 0 and fcsr[31:8] = 0; fcsr = 0, no
reservation and a fetch view equal to memory are the spec's choices (D8, D21); the other zeros are DESIGN CHOICE (log 4).
It is hart 0 of a machine of one hart (log 28). -/
def State.reset : State :=
  { cfg := resetConfig
    x := Vector.replicate 32 0
    pc := 0
    f := Vector.replicate 32 0
    fcsr := 0
    cycle := 0
    time := 0
    instret := 0
    hpm := Vector.replicate 29 0
    reservation := none
    mem := []
    stale := []
    io := []
    status := .running
    draws := 0
    hart := 0 }

end Sys2Proof.Machine
end

