-- ==== Sys2Proof/Machine/Ops.lean ====
section
/-!
DEFINITION. The named operations every meaning is written over: registers and pc, bytes of memory and byte order,
the access checks of R100, loads and stores, the reservation, and taking an exception with the return from one.
-/
namespace Sys2Proof.Machine

/-! ### XLEN -/

/-- The low XLEN bits of a word, the others 0. -/
def lowBits (x : Xlen) (v : Word) : Word :=
  match x with
  | .rv32 => (v.setWidth 32).setWidth 64
  | .rv64 => v

/-- The low XLEN bits of a word, sign-extended to the container. -/
def signBits (x : Xlen) (v : Word) : Word :=
  match x with
  | .rv32 => (v.setWidth 32).signExtend 64
  | .rv64 => v

/-- Sign extension of the low 32 bits (`sext_32` of the W instructions, R360). -/
def sext32 (v : Word) : Word := (v.setWidth 32).signExtend 64

/-- XLEN of the running configuration. -/
def State.xlen (s : State) : Xlen := s.cfg.xlen

/-- What this step's free values are drawn for (log 10). -/
def State.draw (s : State) : Draw := { hart := s.hart, step := s.draws }

/-! ### Integer registers -/

/-- Read x[r], zero-extended to the container; x0 reads 0 (R31). -/
def State.rx (s : State) (r : RegNum) : Word :=
  if r = 0 then 0 else lowBits s.xlen (s.x[r.toNat]'r.isLt)

/-- Write the low XLEN bits of a word to x[r]; a write to x0 is discarded (R31). -/
def State.wx (s : State) (r : RegNum) (v : Word) : State :=
  if r = 0 then s else { s with x := s.x.set r.toNat (lowBits s.xlen v) r.isLt }

/-- x[r] sign-extended from XLEN bits to the container. -/
def State.sx (s : State) (r : RegNum) : Word := signBits s.xlen (s.rx r)

/-- Register 8 + field of a compressed format (R725). -/
def creg (r : CRegNum) : RegNum := 1#2 ++ r

/-! ### Floating-point registers and NaN boxing -/

/-- FLEN of the running configuration (R50). -/
def State.flen (s : State) : Nat := Machine.flen s.cfg.ext

/-- The low n bits of a pattern. -/
def lowF (n : Nat) (v : FWord) : FWord := v &&& (BitVec.ofNat 128 (2 ^ n - 1))

/-- The low n bits of f[r], whatever the bits above them: a transfer out of the register (R54). -/
def State.rfBits (s : State) (n : Nat) (r : RegNum) : FWord := lowF n (lowF s.flen (s.f[r.toNat]'r.isLt))

/-- `box_n` (R53): the n-bit value with ones above it up to FLEN. -/
def box (flen n : Nat) (v : FWord) : FWord :=
  lowF n v ||| (BitVec.ofNat 128 (2 ^ flen - 1) &&& ~~~ BitVec.ofNat 128 (2 ^ n - 1))

/-- Write an n-bit value to f[r], NaN-boxed (R53). -/
def State.wf (s : State) (n : Nat) (r : RegNum) (v : FWord) : State :=
  { s with f := s.f.set r.toNat (lowF s.flen (box s.flen n v)) r.isLt }

/-! ### The pc and retirement -/

/-- Complete an instruction of `len` bytes that does not transfer control (R36), and count it (R500). -/
def State.retire (s : State) (len : Nat) : State :=
  { s with pc := lowBits s.xlen (s.pc + BitVec.ofNat 64 len), instret := s.instret + 1 }

/-- Complete an instruction that transfers control to a target, and count it (R500). -/
def State.jump (s : State) (target : Word) : State :=
  { s with pc := lowBits s.xlen target, instret := s.instret + 1 }

/-! ### Bytes of memory -/

/-- The byte an address holds (R60). -/
def readByte : Memory → Nat → Byte
  | [], _ => unlistedByte
  | (k, b) :: m, a => if a = k then b else readByte m a

/-- Insert an entry before the first one at a higher address. -/
def insertByte (a : Nat) (b : Byte) : Memory → Memory
  | [] => [(a, b)]
  | (k, c) :: m => if a < k then (a, b) :: (k, c) :: m else (k, c) :: insertByte a b m

/-- Remove the entries of an address. -/
def eraseByte (a : Nat) : Memory → Memory
  | [] => []
  | (k, c) :: m => if k = a then eraseByte a m else (k, c) :: eraseByte a m

/-- Write one byte, keeping the canonical form: the value an unlisted address reads as is never listed. -/
def writeByte (m : Memory) (a : Nat) (b : Byte) : Memory :=
  if b = unlistedByte then eraseByte a m else insertByte a b (eraseByte a m)

/-- Every listed address is above a bound, the addresses rise, and no entry holds what an unlisted address reads as. -/
def canonicalFrom : Nat → Memory → Bool
  | _, [] => true
  | lo, (k, b) :: m => lo ≤ k && b != unlistedByte && canonicalFrom (k + 1) m

/-- The canonical form of memory. -/
def Memory.wf (m : Memory) : Bool := canonicalFrom 0 m

/-- The address of byte `i` of an access at `a`: the address space is circular (R80). -/
def byteAddr (x : Xlen) (a : Word) (i : Nat) : Nat := (a.toNat + i) % 2 ^ x.bits

/-- The addresses of the bytes of an n-byte access, lowest first. -/
def accessAddrs (x : Xlen) (a : Word) (n : Nat) : List Nat := (List.range n).map (byteAddr x a)

/-- The bytes of a value, least significant first. -/
def valueBytes (n v : Nat) : List Byte := (List.range n).map fun i => BitVec.ofNat 8 (v / 2 ^ (8 * i))

/-- The value of bytes given least significant first. -/
def bytesValue : List Byte → Nat
  | [] => 0
  | b :: bs => b.toNat + 256 * bytesValue bs

/-- From least significant first to increasing addresses and back (R88). -/
def inOrder (e : Endian) (bs : List Byte) : List Byte :=
  match e with
  | .little => bs
  | .big => bs.reverse

/-! ### Regions and the checks of an access -/

/-- An address lies in a region. -/
def Region.holds (r : Region) (a : Nat) : Bool := r.base ≤ a && a < r.base + r.size

/-- The region of an address; none is vacant (R81). -/
def regionAt (c : Config) (a : Nat) : Option Region := c.regions.find? fun r => Region.holds r a

/-- The address belongs to a device (R81). -/
def isIo (c : Config) (a : Nat) : Bool :=
  match regionAt c a with
  | some r => r.kind == .io
  | none => false

/-- The kinds of explicit access (R84, R102). -/
inductive Access
  | load
  | store
  | lr
  | sc
  | amo (op : AmoOp)
  deriving DecidableEq, Repr

/-- What a region allows: the permissions of R83, the width, and the atomic support of R109, R434 and R455. -/
def regionAllows (k : Access) (n : Nat) (r : Region) : Bool :=
  r.kind != .vacant && r.widths.contains n &&
    match k with
    | .load => r.read
    | .store => r.write
    | .lr => r.read && r.lrsc
    | .sc => r.write && r.lrsc
    | .amo op => r.read && r.write && r.amos.contains op

/-- Every byte of the access is accessible for it (R83, R100). DESIGN CHOICE (log 16): of a misaligned access that may be
decomposed, each component is checked (R305) as a part of the whole, by every byte of it and with the whole access's width,
not with a width of its own, which the spec does not give. -/
def accessible (c : Config) (k : Access) (n : Nat) (a : Word) : Bool :=
  (accessAddrs c.xlen a n).all fun b =>
    match regionAt c b with
    | some r => regionAllows k n r
    | none => false

/-- The address-misaligned exception of an access (R818, R819, D7). -/
def misalignedCause (k : Access) (a : Word) : Cause :=
  match k with
  | .load | .lr => .loadAddressMisaligned a
  | .store | .sc | .amo _ => .storeAMOAddressMisaligned a

/-- The access-fault exception of an access (R816, R817, D22). -/
def accessFaultCause (k : Access) (a : Word) : Cause :=
  match k with
  | .load | .lr => .loadAccessFault a
  | .store | .sc | .amo _ => .storeAMOAccessFault a

/-- Naturally aligned (R94). -/
def alignedTo (n : Nat) (a : Word) : Bool := a.toNat % n == 0

/-- Some byte of the access lies where a misaligned access may not be emulated, so that an access-fault exception can stand
for the address-misaligned one (R96, R99, R109). -/
def misalignmentMayFault (c : Config) (n : Nat) (a : Word) : Bool :=
  (accessAddrs c.xlen a n).any fun b =>
    match regionAt c b with
    | some r => !r.emulable
    | none => true

/-- What a misaligned load or store does under MISALIGNED (R96): the exception it raises, if any. -/
def misalignedOutcome (s : State) (k : Access) (n : Nat) (a : Word) : Option Cause :=
  match s.cfg.misaligned with
  | .trap => some (misalignedCause k a)
  | .supported => none
  | .either =>
    match Config.misalignedChoice s.draw a.toNat n with
    | .complete => none
    | .addressMisaligned => some (misalignedCause k a)
    | .accessFault => some (if misalignmentMayFault s.cfg n a then accessFaultCause k a else misalignedCause k a)

/-- Which exception a misaligned atomic raises (R99, D15). -/
def misalignedAtomicCause (s : State) (k : Access) (n : Nat) (a : Word) : Cause :=
  let faults : Bool := match s.cfg.misalignedAtomic with
    | .addressMisaligned => false
    | .accessFault => true
    | .either => Config.misalignedAtomicFaults s.draw a.toNat n
  if faults && misalignmentMayFault s.cfg n a then accessFaultCause k a else misalignedCause k a

/-- Step (1) of R100: alignment. LR, SC and, without Zam, AMOs never complete misaligned (R433, R466, R470). -/
def alignmentCheck (s : State) (k : Access) (n : Nat) (a : Word) : Option Cause :=
  if alignedTo n a then none
  else match k with
    | .load | .store => misalignedOutcome s k n a
    | .lr | .sc => some (misalignedAtomicCause s k n a)
    | .amo _ => if s.cfg.ext.zam then none else some (misalignedAtomicCause s k n a)

/-- The checks of R100 in their order: alignment, then the accessibility of every byte. -/
def accessCheck (s : State) (k : Access) (n : Nat) (a : Word) : Option Cause :=
  match alignmentCheck s k n a with
  | some c => some c
  | none => if accessible s.cfg k n a then none else some (accessFaultCause k a)

/-! ### Loads and stores -/

/-- The byte a read of an address gives: main memory, or a device's free answer (R104). -/
def State.dataByte (s : State) (a : Nat) : Byte :=
  if isIo s.cfg a then Config.deviceByte s.draw s.io a else readByte s.mem a

/-- `MemRead(a, n)` (R88): the value of an n-byte read. -/
def State.memRead (s : State) (n : Nat) (a : Word) : Nat :=
  bytesValue (inOrder s.cfg.endian ((accessAddrs s.xlen a n).map s.dataByte))

/-- Record an access that touches a device (R104). -/
def State.noteIo (s : State) (k : IoKind) (n : Nat) (a : Word) (v : Nat) : State :=
  if (accessAddrs s.xlen a n).any (isIo s.cfg) then { s with io := ⟨k, a.toNat, n, v⟩ :: s.io } else s

/-- Store one byte of main memory, keeping the value it replaces for the fetch view (R71, R120). -/
def State.storeByte (s : State) (a : Nat) (b : Byte) : State :=
  { s with
    mem := writeByte s.mem a b
    stale := if readByte s.mem a = b then s.stale else (a, readByte s.mem a) :: s.stale }

/-- Store bytes at addresses; those that belong to a device change no memory. -/
def State.storeBytes (s : State) : List (Nat × Byte) → State
  | [] => s
  | (a, b) :: l => (if isIo s.cfg a then s else s.storeByte a b).storeBytes l

/-- `MemWrite(a, n, v)` (R88): an n-byte write. -/
def State.memWrite (s : State) (n : Nat) (a : Word) (v : Nat) : State :=
  (s.storeBytes ((accessAddrs s.xlen a n).zip (inOrder s.cfg.endian (valueBytes n v)))).noteIo .write n a v

/-! ### The load reservation -/

/-- `ReservationSet(a, n)` (R438): the aligned block that holds the bytes, or any set that holds them. -/
def reservationSet (p : ReservationPolicy) (a n : Nat) : List ByteRange :=
  match p with
  | .granule k => [{ base := a / 2 ^ k * 2 ^ k, size := 2 ^ k }]
  | .arbitrary => { base := a, size := n } :: Config.extraReservation a n

/-- A byte address belongs to a set. -/
def inSet (rs : List ByteRange) (a : Nat) : Bool := rs.any fun r => r.base ≤ a && a < r.base + r.size

/-- LR registers a reservation in place of any earlier one (R434, R439). -/
def State.reserve (s : State) (n : Nat) (a : Word) : State :=
  { s with
    reservation :=
      some { bytes := reservationSet s.cfg.reservationPolicy a.toNat n, lrAddr := a.toNat, lrSize := n } }

/-- The reservation lets an SC of n bytes at `a` succeed: it is held and its set contains the bytes (R436, R441). -/
def reservationCovers (s : State) (n : Nat) (a : Word) : Bool :=
  match s.reservation with
  | some r => (accessAddrs s.xlen a n).all (inSet r.bytes)
  | none => false

/-- Whether an SC succeeds: covered, and no spurious failure (R436, R443). -/
def scSucceeds (s : State) (n : Nat) (a : Word) : Bool :=
  reservationCovers s n a && !Config.spuriousFail s.draw

/-! ### Taking an exception, and the return from one -/

/-- What the environment changes when it resumes the hart (R805, R810): the new pc, registers and fcsr, bytes it stores,
instructions it let the hart retire, and whether it kept the reservation and brought the fetch view up to date. -/
structure EnvEffect where
  pc              : Word
  x               : Vector Word 32
  f               : Vector FWord 32
  fcsr            : BitVec 32
  stores          : List (Nat × Byte)
  events          : List IoEvent
  retired         : Nat
  keepReservation : Bool
  syncFetch       : Bool
  deriving DecidableEq, Repr, Inhabited

/-- The two outcomes of a trap (R805). -/
inductive EnvResult
  | terminate (report : Report)
  | resume (effect : EnvEffect)
  deriving DecidableEq, Repr, Inhabited

end Sys2Proof.Machine

namespace Sys2Proof

/-- DESIGN CHOICE (log 2), safe: ENV_TRAP, what the environment does with a trap (R805, D6). -/
opaque Config.onTrap (t : Machine.TrapRecord) (s : Machine.State) : Machine.EnvResult

/-- DESIGN CHOICE (log 2), safe: ENV_CALL, what the environment does with an ECALL (R330, D12). -/
opaque Config.onCall (t : Machine.TrapRecord) (s : Machine.State) : Machine.EnvResult

/-- DESIGN CHOICE (log 2), safe: ENV_BREAK, what the environment does with an EBREAK (R331, D12). -/
opaque Config.onBreak (t : Machine.TrapRecord) (s : Machine.State) : Machine.EnvResult

end Sys2Proof

namespace Sys2Proof.Machine

/-- The low bits of a pc that IALIGN makes 0 (R37). -/
def alignPc (c : Config) (pc : Word) : Word :=
  if c.ext.c then pc &&& ~~~ 1#64 else pc &&& ~~~ 3#64

/-- Return from a trap: the state the environment resumes from (R805). It hands over a legal state: an aligned pc (R37),
values of the registers' widths, and stores within the address space; the configuration does not change. -/
def State.resume (s : State) (e : EnvEffect) : State :=
  let t := s.storeBytes (e.stores.map fun c => (c.1 % 2 ^ s.xlen.bits, c.2))
  { t with
    pc := alignPc s.cfg (lowBits s.xlen e.pc)
    x := e.x.map (lowBits s.xlen)
    f := e.f.map (lowF s.flen)
    fcsr := e.fcsr &&& 0xFF#32
    instret := s.instret + BitVec.ofNat 64 e.retired
    io := e.events ++ t.io
    reservation := if e.keepReservation then s.reservation else none
    stale := if e.syncFetch then [] else t.stale }

/-- Stop the machine with a report (R827); nothing else changes. -/
def State.terminate (s : State) (r : Report) : State := { s with status := .terminated r }

/-- The environment's answer to a trap: by the cause's policy, terminate with the record or ask (R805, D6, D12). -/
def environmentAnswer (s : State) (t : TrapRecord) : EnvResult :=
  match t.cause with
  | .environmentCall =>
    match s.cfg.envCall with
    | .terminate => .terminate (.record t)
    | .environment => Config.onCall t s
  | .breakpoint =>
    match s.cfg.envBreak with
    | .terminate => .terminate (.record t)
    | .environment => Config.onBreak t s
  | _ =>
    match s.cfg.envTrap with
    | .terminate => .terminate (.record t)
    | .environment => Config.onTrap t s

/-- The trap record of a raising instruction (R805, R808). -/
def State.trapRecord (s : State) (c : Cause) : TrapRecord := { hart := s.hart, cause := c, pc := s.pc }

/-- The state after a raised exception: nothing of the raising instruction has happened (R806, R807), its record goes to
the environment, which terminates the execution or resumes it. -/
def State.takeTrap (s : State) (c : Cause) : State :=
  match environmentAnswer s (s.trapRecord c) with
  | .terminate r => s.terminate r
  | .resume e => s.resume e

/-- `raise E(info)` (R806): taking an exception is a next state. -/
def raise (s : State) (c : Cause) : Host.Outcome State Fault Refusal := .next (s.takeTrap c)

/-- The illegal-instruction exception of an instruction, reporting its own bits (R808, R812). -/
def raiseIllegal (s : State) (i : Instr) : Host.Outcome State Fault Refusal := raise s (.illegalInstruction (encode i))

/-! ### Accesses as meanings use them -/

/-- A load of n bytes at `a`: the checks, then the read; `k` puts the value where the instruction wants it (R100, R295). -/
def loadThen (s : State) (ac : Access) (n : Nat) (a : Word) (k : Nat → State → State) :
    Host.Outcome State Fault Refusal :=
  match accessCheck s ac n a with
  | some c => raise s c
  | none => .next (k (s.memRead n a) (s.noteIo .read n a (s.memRead n a)))

/-- A store of n bytes at `a`: the checks, then the write, then `k` (R100, R302). -/
def storeThen (s : State) (n : Nat) (a : Word) (v : Nat) (k : State → State) : Host.Outcome State Fault Refusal :=
  match accessCheck s .store n a with
  | some c => raise s c
  | none => .next (k (s.memWrite n a v))

/-- A jump to `target`, with `t` the state in which the link register is written: where IALIGN = 32 a target that is not
four-byte aligned raises instruction-address-misaligned instead (R811). -/
def jumpOrRaise (s t : State) (target : Word) : Host.Outcome State Fault Refusal :=
  if !s.cfg.ext.c && !alignedTo 4 (lowBits s.xlen target) then
    raise s (.instructionAddressMisaligned (lowBits s.xlen target))
  else .next (t.jump target)

end Sys2Proof.Machine
end

