-- ==== Sys2Proof/Machine/Operands.lean ====
section
/-!
DEFINITION. Operand forms: the immediates of each format as 64-bit values (R200 to R205, R726), shift amounts,
effective addresses, and the shapes that meanings of one form share: a result written to rd, a load, a store, a branch.
-/
namespace Sys2Proof.Machine

/-! ### Immediates -/

/-- The I and S immediate, sign-extended (R201, R202). -/
def immValue (imm : BitVec 12) : Word := imm.signExtend 64

/-- The B offset: imm[12:1] doubled and sign-extended (R203). -/
def branchOffset (imm : BitVec 12) : Word := (imm ++ 0#1).signExtend 64

/-- The J offset: imm[20:1] doubled and sign-extended (R204). -/
def jumpOffset (imm : BitVec 20) : Word := (imm ++ 0#1).signExtend 64

/-- The U immediate: imm[31:12] with twelve zeros below it, sign-extended (R200, R260, R368). -/
def upperValue (imm : BitVec 20) : Word := (imm ++ 0#12).signExtend 64

/-- A six-bit immediate of the CI format, sign-extended (R726). -/
def imm6Value (imm : BitVec 6) : Word := imm.signExtend 64

/-- The C.LUI value: the six-bit field in bits 17:12, sign-extended (R757). -/
def cluiValue (imm : BitVec 6) : Word := (imm ++ 0#12).signExtend 64

/-- The C.ADDI16SP value: sixteen times the field, sign-extended (R760). -/
def addi16spValue (imm : BitVec 6) : Word := (imm ++ 0#4).signExtend 64

/-- The C.ADDI4SPN value: four times the field (R761). -/
def addi4spnValue (imm : BitVec 8) : Word := (imm ++ 0#2).setWidth 64

/-- The C.J and C.JAL offset, doubled and sign-extended (R750). -/
def cjOffset (off : BitVec 11) : Word := (off ++ 0#1).signExtend 64

/-- The C.BEQZ and C.BNEZ offset, doubled and sign-extended (R754). -/
def cbOffset (off : BitVec 8) : Word := (off ++ 0#1).signExtend 64

/-- A zero-extended offset scaled by 2 ^ k bytes (R726). -/
def scaledOffset {w : Nat} (k : Nat) (off : BitVec w) : Word := BitVec.ofNat 64 (off.toNat * 2 ^ k)

/-! ### Addresses and shift amounts -/

/-- base + offset modulo 2 ^ XLEN (R80, R295). -/
def State.address (s : State) (base : RegNum) (off : Word) : Word := lowBits s.xlen (s.rx base + off)

/-- The shift amount in the low 5 or 6 bits of a register (R269, R362). -/
def shiftAmount (x : Xlen) (v : Word) : Nat := v.toNat % x.bits

/-! ### Results -/

/-- Complete an instruction whose result goes to rd. -/
def finishX (s : State) (len : Nat) (rd : RegNum) (v : Word) : Host.Outcome State Fault Refusal :=
  .next ((s.wx rd v).retire len)

/-- Shift right arithmetic of the XLEN-bit value of a word (R259, R271). -/
def sraX (x : Xlen) (v : Word) (n : Nat) : Word := (signBits x v).sshiftRight n

/-- Signed comparison of XLEN-bit values (R252, R264, R288). -/
def ltS (x : Xlen) (a b : Word) : Bool := (signBits x a).slt (signBits x b)

/-- 1 or 0 as a word. -/
def boolWord (b : Bool) : Word := if b then 1 else 0

/-- Shift left of the low 32 bits, sign-extended (R365, R372). -/
def sllW (v : Word) (n : Nat) : Word := (v.setWidth 32 <<< n).signExtend 64

/-- Logical shift right of the low 32 bits, sign-extended (R366, R373). -/
def srlW (v : Word) (n : Nat) : Word := (v.setWidth 32 >>> n).signExtend 64

/-- Arithmetic shift right of the low 32 bits, sign-extended (R367, R374). -/
def sraW (v : Word) (n : Nat) : Word := ((v.setWidth 32).sshiftRight n).signExtend 64

/-! ### Loads, stores, branches -/

/-- The n-byte value of a load, sign-extended (R297 to R299). -/
def loadSigned (n v : Nat) : Word := (BitVec.ofNat (8 * n) v).signExtend 64

/-- The n-byte value of a load, zero-extended (R300, R301, R377). -/
def loadUnsigned (v : Nat) : Word := BitVec.ofNat 64 v

/-- Load n bytes, sign-extended, into x[rd] (R295). -/
def loadSX (s : State) (len n : Nat) (rd : RegNum) (a : Word) : Host.Outcome State Fault Refusal :=
  loadThen s .load n a fun v t => (t.wx rd (loadSigned n v)).retire len

/-- Load n bytes, zero-extended, into x[rd] (R295). -/
def loadZX (s : State) (len n : Nat) (rd : RegNum) (a : Word) : Host.Outcome State Fault Refusal :=
  loadThen s .load n a fun v t => (t.wx rd (loadUnsigned v)).retire len

/-- Load n bytes, NaN-boxed, into f[rd] (R54, R540). -/
def loadF (s : State) (len n : Nat) (rd : RegNum) (a : Word) : Host.Outcome State Fault Refusal :=
  loadThen s .load n a fun v t => (t.wf (8 * n) rd (BitVec.ofNat 128 v)).retire len

/-- The low n bytes of a register's value. -/
def lowBytes (n : Nat) (v : Nat) : Nat := v % 2 ^ (8 * n)

/-- Store the low n bytes of x[rs2] (R302 to R304). -/
def storeX (s : State) (len n : Nat) (rs2 : RegNum) (a : Word) : Host.Outcome State Fault Refusal :=
  storeThen s n a (lowBytes n (s.rx rs2).toNat) fun t => t.retire len

/-- Store the low n bytes of f[rs2], whatever the bits above them (R54, R541). -/
def storeF (s : State) (len n : Nat) (rs2 : RegNum) (a : Word) : Host.Outcome State Fault Refusal :=
  storeThen s n a (s.rfBits (8 * n) rs2).toNat fun t => t.retire len

/-- A conditional branch (R285): where the condition holds a jump to pc + offset, else the next instruction. -/
def branchIf (s : State) (len : Nat) (taken : Bool) (off : Word) : Host.Outcome State Fault Refusal :=
  if taken then jumpOrRaise s s (s.pc + off) else .next (s.retire len)

/-- A jump that links: rd receives the address of the following instruction (R280, R282). -/
def linkAndJump (s : State) (len : Nat) (rd : RegNum) (target : Word) : Host.Outcome State Fault Refusal :=
  jumpOrRaise s (s.wx rd (s.pc + BitVec.ofNat 64 len)) target

/-- The target of JALR: x[rs1] + offset with bit 0 cleared (R282). -/
def jalrTarget (s : State) (rs1 : RegNum) (off : Word) : Word := (s.rx rs1 + off) &&& ~~~ 1#64

end Sys2Proof.Machine
end

