-- ==== Sys2Proof/Machine/Atomic.lean ====
section
/-!
DEFINITION. The A extension and Zam (spec/44_a_atomics.md). The aq and rl bits order accesses as other harts see them and change nothing
on one hart (R431).
-/
namespace Sys2Proof.Machine

/-- LR (R434, R435): load, sign-extend, register the reservation. -/
def loadReserved (s : State) (n : Nat) (rd : RegNum) (a : Word) : Host.Outcome State Fault Refusal :=
  loadThen s .lr n a fun v t => ((t.wx rd (loadSigned n v)).reserve n a).retire 4

/-- SC (R436, R437): the checks on every SC, then success or failure; either way the reservation is gone. A failed SC makes
no access and writes the failure code 1 (R444, D14). -/
def storeConditional (s : State) (n : Nat) (rd rs2 : RegNum) (a : Word) : Host.Outcome State Fault Refusal :=
  match accessCheck s .sc n a with
  | some c => raise s c
  | none =>
    let t := if scSucceeds s n a then (s.memWrite n a (lowBytes n (s.rx rs2).toNat)).wx rd 0 else s.wx rd 1
    .next (({ t with reservation := none } : State).retire 4)

/-- The operation of an AMO on n-byte values (R456 to R464, R471 to R479). -/
def amoValue (op : AmoOp) (n t v : Nat) : Nat :=
  let signed (a : Nat) : Int := (BitVec.ofNat (8 * n) a).toInt
  match op with
  | .swap => v
  | .add => (t + v) % 2 ^ (8 * n)
  | .xor => t ^^^ v
  | .and => t &&& v
  | .or => t ||| v
  | .min => if signed t < signed v then t else v
  | .max => if signed t < signed v then v else t
  | .minu => if t < v then t else v
  | .maxu => if t < v then v else t

/-- An AMO (R455): the checks, then one read and one write; rd receives the old value, sign-extended. The hart's own
reservation stays (D13). -/
def atomicOp (s : State) (op : AmoOp) (n : Nat) (rd rs2 : RegNum) (a : Word) : Host.Outcome State Fault Refusal :=
  loadThen s (.amo op) n a fun v t =>
    ((t.memWrite n a (amoValue op n v (lowBytes n (s.rx rs2).toNat))).wx rd (loadSigned n v)).retire 4

/-- LR.W (R434). -/
def execLrW (rd rs1 : RegNum) (_aq _rl : Bool) (s : State) : Host.Outcome State Fault Refusal :=
  loadReserved s 4 rd (s.rx rs1)

/-- SC.W (R436). -/
def execScW (rd rs1 rs2 : RegNum) (_aq _rl : Bool) (s : State) : Host.Outcome State Fault Refusal :=
  storeConditional s 4 rd rs2 (s.rx rs1)

/-- AMOSWAP.W (R456). -/
def execAmoswapW (rd rs1 rs2 : RegNum) (_aq _rl : Bool) (s : State) : Host.Outcome State Fault Refusal :=
  atomicOp s .swap 4 rd rs2 (s.rx rs1)

/-- AMOADD.W (R457). -/
def execAmoaddW (rd rs1 rs2 : RegNum) (_aq _rl : Bool) (s : State) : Host.Outcome State Fault Refusal :=
  atomicOp s .add 4 rd rs2 (s.rx rs1)

/-- AMOXOR.W (R458). -/
def execAmoxorW (rd rs1 rs2 : RegNum) (_aq _rl : Bool) (s : State) : Host.Outcome State Fault Refusal :=
  atomicOp s .xor 4 rd rs2 (s.rx rs1)

/-- AMOAND.W (R459). -/
def execAmoandW (rd rs1 rs2 : RegNum) (_aq _rl : Bool) (s : State) : Host.Outcome State Fault Refusal :=
  atomicOp s .and 4 rd rs2 (s.rx rs1)

/-- AMOOR.W (R460). -/
def execAmoorW (rd rs1 rs2 : RegNum) (_aq _rl : Bool) (s : State) : Host.Outcome State Fault Refusal :=
  atomicOp s .or 4 rd rs2 (s.rx rs1)

/-- AMOMIN.W (R461). -/
def execAmominW (rd rs1 rs2 : RegNum) (_aq _rl : Bool) (s : State) : Host.Outcome State Fault Refusal :=
  atomicOp s .min 4 rd rs2 (s.rx rs1)

/-- AMOMAX.W (R462). -/
def execAmomaxW (rd rs1 rs2 : RegNum) (_aq _rl : Bool) (s : State) : Host.Outcome State Fault Refusal :=
  atomicOp s .max 4 rd rs2 (s.rx rs1)

/-- AMOMINU.W (R463). -/
def execAmominuW (rd rs1 rs2 : RegNum) (_aq _rl : Bool) (s : State) : Host.Outcome State Fault Refusal :=
  atomicOp s .minu 4 rd rs2 (s.rx rs1)

/-- AMOMAXU.W (R464). -/
def execAmomaxuW (rd rs1 rs2 : RegNum) (_aq _rl : Bool) (s : State) : Host.Outcome State Fault Refusal :=
  atomicOp s .maxu 4 rd rs2 (s.rx rs1)

/-- LR.D (R435). -/
def execLrD (rd rs1 : RegNum) (_aq _rl : Bool) (s : State) : Host.Outcome State Fault Refusal :=
  loadReserved s 8 rd (s.rx rs1)

/-- SC.D (R437). -/
def execScD (rd rs1 rs2 : RegNum) (_aq _rl : Bool) (s : State) : Host.Outcome State Fault Refusal :=
  storeConditional s 8 rd rs2 (s.rx rs1)

/-- AMOSWAP.D (R471). -/
def execAmoswapD (rd rs1 rs2 : RegNum) (_aq _rl : Bool) (s : State) : Host.Outcome State Fault Refusal :=
  atomicOp s .swap 8 rd rs2 (s.rx rs1)

/-- AMOADD.D (R472). -/
def execAmoaddD (rd rs1 rs2 : RegNum) (_aq _rl : Bool) (s : State) : Host.Outcome State Fault Refusal :=
  atomicOp s .add 8 rd rs2 (s.rx rs1)

/-- AMOXOR.D (R473). -/
def execAmoxorD (rd rs1 rs2 : RegNum) (_aq _rl : Bool) (s : State) : Host.Outcome State Fault Refusal :=
  atomicOp s .xor 8 rd rs2 (s.rx rs1)

/-- AMOAND.D (R474). -/
def execAmoandD (rd rs1 rs2 : RegNum) (_aq _rl : Bool) (s : State) : Host.Outcome State Fault Refusal :=
  atomicOp s .and 8 rd rs2 (s.rx rs1)

/-- AMOOR.D (R475). -/
def execAmoorD (rd rs1 rs2 : RegNum) (_aq _rl : Bool) (s : State) : Host.Outcome State Fault Refusal :=
  atomicOp s .or 8 rd rs2 (s.rx rs1)

/-- AMOMIN.D (R476). -/
def execAmominD (rd rs1 rs2 : RegNum) (_aq _rl : Bool) (s : State) : Host.Outcome State Fault Refusal :=
  atomicOp s .min 8 rd rs2 (s.rx rs1)

/-- AMOMAX.D (R477). -/
def execAmomaxD (rd rs1 rs2 : RegNum) (_aq _rl : Bool) (s : State) : Host.Outcome State Fault Refusal :=
  atomicOp s .max 8 rd rs2 (s.rx rs1)

/-- AMOMINU.D (R478). -/
def execAmominuD (rd rs1 rs2 : RegNum) (_aq _rl : Bool) (s : State) : Host.Outcome State Fault Refusal :=
  atomicOp s .minu 8 rd rs2 (s.rx rs1)

/-- AMOMAXU.D (R479). -/
def execAmomaxuD (rd rs1 rs2 : RegNum) (_aq _rl : Bool) (s : State) : Host.Outcome State Fault Refusal :=
  atomicOp s .maxu 8 rd rs2 (s.rx rs1)

end Sys2Proof.Machine
end

