-- ==== Sys2Proof/Machine/Compressed.lean ====
section
/-!
DEFINITION. The C extension: every 16-bit instruction executes as its expansion, with pc + 2 for pc + 4 (R722; spec/49_c_compressed.md).
-/
namespace Sys2Proof.Machine

/-- C.ADDI4SPN (R761). Expands to `addi rd', x2, nzuimm` (R722). -/
def execCAddi4spn (rd : CRegNum) (imm : BitVec 8) (s : State) : Host.Outcome State Fault Refusal :=
  finishX s 2 (creg rd) (s.rx 2 + addi4spnValue imm)

/-- C.FLD (R744). Expands to `fld rd', uimm(rs1')` (R722). -/
def execCFld (rd rs1 : CRegNum) (off : BitVec 5) (s : State) : Host.Outcome State Fault Refusal :=
  loadF s 2 8 (creg rd) (s.address (creg rs1) (scaledOffset 3 off))

/-- C.LQ (R742). It exists at XLEN = 128 only; at 32 and 64 its bits are reserved for it, and it takes the
illegal-instruction exception (D30, D11). -/
def execCLq (rd rs1 : CRegNum) (off : BitVec 5) (s : State) : Host.Outcome State Fault Refusal :=
  raiseIllegal s (.cLq rd rs1 off)

/-- C.LW (R740). Expands to `lw rd', uimm(rs1')` (R722). -/
def execCLw (rd rs1 : CRegNum) (off : BitVec 5) (s : State) : Host.Outcome State Fault Refusal :=
  loadSX s 2 4 (creg rd) (s.address (creg rs1) (scaledOffset 2 off))

/-- C.FLW (R743). Expands to `flw rd', uimm(rs1')` (R722). -/
def execCFlw (rd rs1 : CRegNum) (off : BitVec 5) (s : State) : Host.Outcome State Fault Refusal :=
  loadF s 2 4 (creg rd) (s.address (creg rs1) (scaledOffset 2 off))

/-- C.LD (R741). Expands to `ld rd', uimm(rs1')` (R722). -/
def execCLd (rd rs1 : CRegNum) (off : BitVec 5) (s : State) : Host.Outcome State Fault Refusal :=
  loadSX s 2 8 (creg rd) (s.address (creg rs1) (scaledOffset 3 off))

/-- C.FSD (R749). Expands to `fsd rs2', uimm(rs1')` (R722). -/
def execCFsd (rs2 rs1 : CRegNum) (off : BitVec 5) (s : State) : Host.Outcome State Fault Refusal :=
  storeF s 2 8 (creg rs2) (s.address (creg rs1) (scaledOffset 3 off))

/-- C.SQ (R747). It exists at XLEN = 128 only; at 32 and 64 its bits are reserved for it, and it takes the
illegal-instruction exception (D30, D11). -/
def execCSq (rs2 rs1 : CRegNum) (off : BitVec 5) (s : State) : Host.Outcome State Fault Refusal :=
  raiseIllegal s (.cSq rs2 rs1 off)

/-- C.SW (R745). Expands to `sw rs2', uimm(rs1')` (R722). -/
def execCSw (rs2 rs1 : CRegNum) (off : BitVec 5) (s : State) : Host.Outcome State Fault Refusal :=
  storeX s 2 4 (creg rs2) (s.address (creg rs1) (scaledOffset 2 off))

/-- C.FSW (R748). Expands to `fsw rs2', uimm(rs1')` (R722). -/
def execCFsw (rs2 rs1 : CRegNum) (off : BitVec 5) (s : State) : Host.Outcome State Fault Refusal :=
  storeF s 2 4 (creg rs2) (s.address (creg rs1) (scaledOffset 2 off))

/-- C.SD (R746). Expands to `sd rs2', uimm(rs1')` (R722). -/
def execCSd (rs2 rs1 : CRegNum) (off : BitVec 5) (s : State) : Host.Outcome State Fault Refusal :=
  storeX s 2 8 (creg rs2) (s.address (creg rs1) (scaledOffset 3 off))

/-- C.NOP (R774). With a nonzero immediate a HINT, which runs the same (R781). -/
def execCNop (_imm : BitVec 6) (s : State) : Host.Outcome State Fault Refusal :=
  .next (s.retire 2)

/-- C.ADDI (R758). Expands to `addi rd, rd, nzimm` (R722). -/
def execCAddi (rd : RegNum) (imm : BitVec 6) (s : State) : Host.Outcome State Fault Refusal :=
  finishX s 2 rd (s.rx rd + imm6Value imm)

/-- C.JAL (R751). Expands to `jal x1, imm (link pc+2)` (R722). -/
def execCJal (off : BitVec 11) (s : State) : Host.Outcome State Fault Refusal :=
  linkAndJump s 2 1 (s.pc + cjOffset off)

/-- C.ADDIW (R759). Expands to `addiw rd, rd, imm` (R722). -/
def execCAddiw (rd : RegNum) (imm : BitVec 6) (s : State) : Host.Outcome State Fault Refusal :=
  finishX s 2 rd (sext32 (s.rx rd + imm6Value imm))

/-- C.LI (R756). Expands to `addi rd, x0, imm` (R722). -/
def execCLi (rd : RegNum) (imm : BitVec 6) (s : State) : Host.Outcome State Fault Refusal :=
  finishX s 2 rd (imm6Value imm)

/-- C.ADDI16SP (R760). Expands to `addi x2, x2, nzimm` (R722). -/
def execCAddi16sp (imm : BitVec 6) (s : State) : Host.Outcome State Fault Refusal :=
  finishX s 2 2 (s.rx 2 + addi16spValue imm)

/-- C.LUI (R757). Expands to `lui rd, nzimm` (R722). -/
def execCLui (rd : RegNum) (imm : BitVec 6) (s : State) : Host.Outcome State Fault Refusal :=
  finishX s 2 rd (cluiValue imm)

/-- C.SRLI (R763). Expands to `srli rd', rd', nzuimm` (R722). -/
def execCSrli (rd : CRegNum) (shamt : BitVec 6) (s : State) : Host.Outcome State Fault Refusal :=
  finishX s 2 (creg rd) (s.rx (creg rd) >>> shamt.toNat)

/-- C.SRAI (R764). Expands to `srai rd', rd', nzuimm` (R722). -/
def execCSrai (rd : CRegNum) (shamt : BitVec 6) (s : State) : Host.Outcome State Fault Refusal :=
  finishX s 2 (creg rd) (sraX s.xlen (s.rx (creg rd)) shamt.toNat)

/-- C.ANDI (R765). Expands to `andi rd', rd', imm` (R722). -/
def execCAndi (rd : CRegNum) (imm : BitVec 6) (s : State) : Host.Outcome State Fault Refusal :=
  finishX s 2 (creg rd) (s.rx (creg rd) &&& imm6Value imm)

/-- C.SUB (R771). Expands to `sub rd', rd', rs2'` (R722). -/
def execCSub (rd rs2 : CRegNum) (s : State) : Host.Outcome State Fault Refusal :=
  finishX s 2 (creg rd) (s.rx (creg rd) - s.rx (creg rs2))

/-- C.XOR (R770). Expands to `xor rd', rd', rs2'` (R722). -/
def execCXor (rd rs2 : CRegNum) (s : State) : Host.Outcome State Fault Refusal :=
  finishX s 2 (creg rd) (s.rx (creg rd) ^^^ s.rx (creg rs2))

/-- C.OR (R769). Expands to `or rd', rd', rs2'` (R722). -/
def execCOr (rd rs2 : CRegNum) (s : State) : Host.Outcome State Fault Refusal :=
  finishX s 2 (creg rd) (s.rx (creg rd) ||| s.rx (creg rs2))

/-- C.AND (R768). Expands to `and rd', rd', rs2'` (R722). -/
def execCAnd (rd rs2 : CRegNum) (s : State) : Host.Outcome State Fault Refusal :=
  finishX s 2 (creg rd) (s.rx (creg rd) &&& s.rx (creg rs2))

/-- C.SUBW (R773). Expands to `subw rd', rd', rs2'` (R722). -/
def execCSubw (rd rs2 : CRegNum) (s : State) : Host.Outcome State Fault Refusal :=
  finishX s 2 (creg rd) (sext32 (s.rx (creg rd) - s.rx (creg rs2)))

/-- C.ADDW (R772). Expands to `addw rd', rd', rs2'` (R722). -/
def execCAddw (rd rs2 : CRegNum) (s : State) : Host.Outcome State Fault Refusal :=
  finishX s 2 (creg rd) (sext32 (s.rx (creg rd) + s.rx (creg rs2)))

/-- C.J (R750). Expands to `jal x0, imm` (R722). -/
def execCJ (off : BitVec 11) (s : State) : Host.Outcome State Fault Refusal :=
  linkAndJump s 2 0 (s.pc + cjOffset off)

/-- C.BEQZ (R754). Expands to `beq rs1', x0, imm` (R722). -/
def execCBeqz (rs1 : CRegNum) (off : BitVec 8) (s : State) : Host.Outcome State Fault Refusal :=
  branchIf s 2 (s.rx (creg rs1) == 0) (cbOffset off)

/-- C.BNEZ (R755). Expands to `bne rs1', x0, imm` (R722). -/
def execCBnez (rs1 : CRegNum) (off : BitVec 8) (s : State) : Host.Outcome State Fault Refusal :=
  branchIf s 2 (s.rx (creg rs1) != 0) (cbOffset off)

/-- C.SLLI (R762). Expands to `slli rd, rd, nzuimm` (R722). -/
def execCSlli (rd : RegNum) (shamt : BitVec 6) (s : State) : Host.Outcome State Fault Refusal :=
  finishX s 2 rd (s.rx rd <<< shamt.toNat)

/-- C.FLDSP (R734). Expands to `fld rd, uimm(x2)` (R722). -/
def execCFldsp (rd : RegNum) (off : BitVec 6) (s : State) : Host.Outcome State Fault Refusal :=
  loadF s 2 8 rd (s.address 2 (scaledOffset 3 off))

/-- C.LQSP (R732). It exists at XLEN = 128 only; at 32 and 64 its bits are reserved for it, and it takes the
illegal-instruction exception (D30, D11). -/
def execCLqsp (rd : RegNum) (off : BitVec 6) (s : State) : Host.Outcome State Fault Refusal :=
  raiseIllegal s (.cLqsp rd off)

/-- C.LWSP (R730). Expands to `lw rd, uimm(x2)` (R722). -/
def execCLwsp (rd : RegNum) (off : BitVec 6) (s : State) : Host.Outcome State Fault Refusal :=
  loadSX s 2 4 rd (s.address 2 (scaledOffset 2 off))

/-- C.FLWSP (R733). Expands to `flw rd, uimm(x2)` (R722). -/
def execCFlwsp (rd : RegNum) (off : BitVec 6) (s : State) : Host.Outcome State Fault Refusal :=
  loadF s 2 4 rd (s.address 2 (scaledOffset 2 off))

/-- C.LDSP (R731). Expands to `ld rd, uimm(x2)` (R722). -/
def execCLdsp (rd : RegNum) (off : BitVec 6) (s : State) : Host.Outcome State Fault Refusal :=
  loadSX s 2 8 rd (s.address 2 (scaledOffset 3 off))

/-- C.JR (R752). Expands to `jalr x0, 0(rs1)` (R722). -/
def execCJr (rs1 : RegNum) (s : State) : Host.Outcome State Fault Refusal :=
  linkAndJump s 2 0 (jalrTarget s rs1 0)

/-- C.MV (R766). Expands to `add rd, x0, rs2` (R722). -/
def execCMv (rd rs2 : RegNum) (s : State) : Host.Outcome State Fault Refusal :=
  finishX s 2 rd (s.rx rs2)

/-- C.EBREAK (R775). It takes the breakpoint exception (R813). -/
def execCEbreak (s : State) : Host.Outcome State Fault Refusal :=
  raise s .breakpoint

/-- C.JALR (R753). Expands to `jalr x1, 0(rs1) (link pc+2)` (R722). -/
def execCJalr (rs1 : RegNum) (s : State) : Host.Outcome State Fault Refusal :=
  linkAndJump s 2 1 (jalrTarget s rs1 0)

/-- C.ADD (R767). Expands to `add rd, rd, rs2` (R722). -/
def execCAdd (rd rs2 : RegNum) (s : State) : Host.Outcome State Fault Refusal :=
  finishX s 2 rd (s.rx rd + s.rx rs2)

/-- C.FSDSP (R739). Expands to `fsd rs2, uimm(x2)` (R722). -/
def execCFsdsp (rs2 : RegNum) (off : BitVec 6) (s : State) : Host.Outcome State Fault Refusal :=
  storeF s 2 8 rs2 (s.address 2 (scaledOffset 3 off))

/-- C.SQSP (R737). It exists at XLEN = 128 only; at 32 and 64 its bits are reserved for it, and it takes the
illegal-instruction exception (D30, D11). -/
def execCSqsp (rs2 : RegNum) (off : BitVec 6) (s : State) : Host.Outcome State Fault Refusal :=
  raiseIllegal s (.cSqsp rs2 off)

/-- C.SWSP (R735). Expands to `sw rs2, uimm(x2)` (R722). -/
def execCSwsp (rs2 : RegNum) (off : BitVec 6) (s : State) : Host.Outcome State Fault Refusal :=
  storeX s 2 4 rs2 (s.address 2 (scaledOffset 2 off))

/-- C.FSWSP (R738). Expands to `fsw rs2, uimm(x2)` (R722). -/
def execCFswsp (rs2 : RegNum) (off : BitVec 6) (s : State) : Host.Outcome State Fault Refusal :=
  storeF s 2 4 rs2 (s.address 2 (scaledOffset 2 off))

/-- C.SDSP (R736). Expands to `sd rs2, uimm(x2)` (R722). -/
def execCSdsp (rs2 : RegNum) (off : BitVec 6) (s : State) : Host.Outcome State Fault Refusal :=
  storeX s 2 8 rs2 (s.address 2 (scaledOffset 3 off))

end Sys2Proof.Machine
end

