-- ==== Sys2Proof/Machine/Control.lean ====
section
/-!
DEFINITION. Jumps and branches (spec/40_rv32i_base.md R280 to R291).
-/
namespace Sys2Proof.Machine

/-- JAL (R280). -/
def execJal (rd : RegNum) (imm : BitVec 20) (s : State) : Host.Outcome State Fault Refusal :=
  linkAndJump s 4 rd (s.pc + jumpOffset imm)

/-- JALR (R282). -/
def execJalr (rd rs1 : RegNum) (imm : BitVec 12) (s : State) : Host.Outcome State Fault Refusal :=
  linkAndJump s 4 rd (jalrTarget s rs1 (immValue imm))

/-- BEQ (R286). -/
def execBeq (rs1 rs2 : RegNum) (imm : BitVec 12) (s : State) : Host.Outcome State Fault Refusal :=
  branchIf s 4 (s.rx rs1 == s.rx rs2) (branchOffset imm)

/-- BNE (R287). -/
def execBne (rs1 rs2 : RegNum) (imm : BitVec 12) (s : State) : Host.Outcome State Fault Refusal :=
  branchIf s 4 (s.rx rs1 != s.rx rs2) (branchOffset imm)

/-- BLT (R288). -/
def execBlt (rs1 rs2 : RegNum) (imm : BitVec 12) (s : State) : Host.Outcome State Fault Refusal :=
  branchIf s 4 (ltS s.xlen (s.rx rs1) (s.rx rs2)) (branchOffset imm)

/-- BGE (R289). -/
def execBge (rs1 rs2 : RegNum) (imm : BitVec 12) (s : State) : Host.Outcome State Fault Refusal :=
  branchIf s 4 (!ltS s.xlen (s.rx rs1) (s.rx rs2)) (branchOffset imm)

/-- BLTU (R290). -/
def execBltu (rs1 rs2 : RegNum) (imm : BitVec 12) (s : State) : Host.Outcome State Fault Refusal :=
  branchIf s 4 ((s.rx rs1).ult (s.rx rs2)) (branchOffset imm)

/-- BGEU (R291). -/
def execBgeu (rs1 rs2 : RegNum) (imm : BitVec 12) (s : State) : Host.Outcome State Fault Refusal :=
  branchIf s 4 (!(s.rx rs1).ult (s.rx rs2)) (branchOffset imm)

end Sys2Proof.Machine
end

