-- ==== Sys2Proof/Machine/Flags.lean ====
section
/-!
DEFINITION. The only flags of this volume: the five accrued floating-point exception flags, and the rounding mode, both
fields of fcsr (R38, R42 to R45, R56). The integer instructions have no flags.
-/
namespace Sys2Proof.Machine

/-- A set of IEEE exceptions in the layout of fflags: NV DZ OF UF NX from bit 4 down (R56). -/
abbrev FpFlags := BitVec 5

/-- No exception. -/
def noFlags : FpFlags := 0b00000#5
/-- Invalid operation. -/
def flagNV : FpFlags := 0b10000#5
/-- Divide by zero. -/
def flagDZ : FpFlags := 0b01000#5
/-- Overflow. -/
def flagOF : FpFlags := 0b00100#5
/-- Underflow. -/
def flagUF : FpFlags := 0b00010#5
/-- Inexact. -/
def flagNX : FpFlags := 0b00001#5

/-- The five rounding modes (R45). -/
inductive Rm | rne | rtz | rdn | rup | rmm
  deriving DecidableEq, Repr, Inhabited

/-- The mode a three-bit code stands for; 101, 110 and 111 stand for none (R45). -/
def Rm.ofBits (b : BitVec 3) : Option Rm :=
  match b with
  | 0b000#3 => some .rne
  | 0b001#3 => some .rtz
  | 0b010#3 => some .rdn
  | 0b011#3 => some .rup
  | 0b100#3 => some .rmm
  | _ => none

/-- The frm field (R44). -/
def State.frm (s : State) : BitVec 3 := s.fcsr.extractLsb' 5 3

/-- The fflags field (R44). -/
def State.fflags (s : State) : FpFlags := s.fcsr.extractLsb' 0 5

/-- Set the frm and fflags fields; bits 31:8 read 0 (R43). -/
def State.setFcsr (s : State) (frm : BitVec 3) (flags : FpFlags) : State :=
  { s with fcsr := (0#24 ++ frm ++ flags : BitVec 32) }

/-- The effective rounding mode of an instruction's rm field (R531, D18): the static mode, or frm's for 111; none where
it is reserved. -/
def effectiveRm (s : State) (rm : BitVec 3) : Option Rm :=
  if rm = 0b111#3 then Rm.ofBits s.frm else Rm.ofBits rm

/-- `accrue(F)` (R56): the flags are sticky. -/
def State.accrue (s : State) (flags : FpFlags) : State := s.setFcsr s.frm (s.fflags ||| flags)

end Sys2Proof.Machine
end

