-- ==== Sys2Proof/Machine/Csr.lean ====
section
/-!
DEFINITION. The control and status registers of this volume (Table R41-T) and the six Zicsr instructions
(spec/45_zicsr_counters.md).
-/
namespace Sys2Proof.Machine

/-- The CSRs of Table R41-T; `counter i` is 0xC00 + i and `counterH i` is 0xC80 + i (R41). -/
inductive Csr
  | fflags
  | frm
  | fcsr
  | counter (i : BitVec 5)
  | counterH (i : BitVec 5)
  deriving DecidableEq, Repr

/-- The CSR an address names in Table R41-T. -/
def csrName (a : BitVec 12) : Option Csr :=
  if a = 0x001#12 then some .fflags
  else if a = 0x002#12 then some .frm
  else if a = 0x003#12 then some .fcsr
  else if a.extractLsb' 5 7 = 0x60#7 then some (.counter (a.extractLsb' 0 5))
  else if a.extractLsb' 5 7 = 0x64#7 then some (.counterH (a.extractLsb' 0 5))
  else none

/-- Counters 0, 1 and 2 are the base counters; the others are present where the platform implements them (R47, R502). -/
def counterImplemented (c : Config) (i : BitVec 5) : Bool := i.toNat < 3 || c.hpmImplemented.getLsbD i.toNat

/-- `CsrExists` of a named CSR (Table R41-T, R492, D17). DESIGN CHOICE (log 13): where COUNTERS_ACCESSIBLE is false the hpm
counters do not exist either; R492 names that condition for the base counters only. -/
def Csr.present (c : Config) : Csr → Bool
  | .fflags | .frm | .fcsr => c.ext.f
  | .counter i => c.ext.counters && c.countersAccessible && counterImplemented c i
  | .counterH i => c.ext.counters && c.countersAccessible && counterImplemented c i && c.xlen == .rv32

/-- `CsrReadOnly` (R480, R491): the counters. -/
def Csr.readOnly : Csr → Bool
  | .fflags | .frm | .fcsr => false
  | .counter _ | .counterH _ => true

/-- The CSR an address names in this configuration, if it exists (R492). -/
def csrAt (c : Config) (a : BitVec 12) : Option Csr := (csrName a).filter (Csr.present c)

/-- An hpm counter as it reads: its low `hpmWidth` bits (R502). -/
def State.hpmValue (s : State) (i : BitVec 5) : BitVec 64 :=
  if h : i.toNat - 3 < 29 then BitVec.ofNat 64 ((s.hpm[i.toNat - 3]'h).toNat % 2 ^ s.cfg.hpmWidth) else 0

/-- The 64-bit counter of a number (R46, R47). -/
def State.counter (s : State) (i : BitVec 5) : BitVec 64 :=
  if i = 0 then s.cycle else if i = 1 then s.time else if i = 2 then s.instret else s.hpmValue i

/-- `CsrRead` (R480): the value zero-extended to XLEN bits. -/
def State.csrRead (s : State) : Csr → Word
  | .fflags => s.fflags.setWidth 64
  | .frm => s.frm.setWidth 64
  | .fcsr => (s.frm ++ s.fflags : BitVec 8).setWidth 64
  | .counter i => lowBits s.xlen (s.counter i)
  | .counterH i => s.counter i >>> 32

/-- `CsrWrite` (R480): only the writable bits are kept (R43, R44); a counter is never written. -/
def State.csrWrite (s : State) (c : Csr) (v : Word) : State :=
  match c with
  | .fflags => s.setFcsr s.frm (v.extractLsb' 0 5)
  | .frm => s.setFcsr (v.extractLsb' 0 3) s.fflags
  | .fcsr => s.setFcsr (v.extractLsb' 5 3) (v.extractLsb' 0 5)
  | .counter _ | .counterH _ => s

/-- The common execution of R482: existence, then the read-only check, then read, write and the write of rd as one step.
`i` is the instruction reported where it is illegal; `new` maps the old value to the one written. -/
def csrAccess (s : State) (i : Instr) (rd : RegNum) (csr : BitVec 12) (reads writes : Bool) (new : Word → Word) :
    Host.Outcome State Fault Refusal :=
  match csrAt s.cfg csr with
  | none => raiseIllegal s i
  | some c =>
    if writes && c.readOnly then raiseIllegal s i
    else
      let old := s.csrRead c
      let t := if writes then s.csrWrite c (lowBits s.xlen (new old)) else s
      .next ((if reads then t.wx rd old else t).retire 4)

/-- CSRRW (R484). -/
def execCsrrw (rd : RegNum) (csr : BitVec 12) (rs1 : RegNum) (s : State) : Host.Outcome State Fault Refusal :=
  csrAccess s (.csrrw rd csr rs1) rd csr (rd != 0) true fun _ => s.rx rs1

/-- CSRRS (R485). -/
def execCsrrs (rd : RegNum) (csr : BitVec 12) (rs1 : RegNum) (s : State) : Host.Outcome State Fault Refusal :=
  csrAccess s (.csrrs rd csr rs1) rd csr true (rs1 != 0) fun old => old ||| s.rx rs1

/-- CSRRC (R486). -/
def execCsrrc (rd : RegNum) (csr : BitVec 12) (rs1 : RegNum) (s : State) : Host.Outcome State Fault Refusal :=
  csrAccess s (.csrrc rd csr rs1) rd csr true (rs1 != 0) fun old => old &&& ~~~ s.rx rs1

/-- CSRRWI (R487). -/
def execCsrrwi (rd : RegNum) (csr : BitVec 12) (uimm : BitVec 5) (s : State) : Host.Outcome State Fault Refusal :=
  csrAccess s (.csrrwi rd csr uimm) rd csr (rd != 0) true fun _ => uimm.setWidth 64

/-- CSRRSI (R488). -/
def execCsrrsi (rd : RegNum) (csr : BitVec 12) (uimm : BitVec 5) (s : State) : Host.Outcome State Fault Refusal :=
  csrAccess s (.csrrsi rd csr uimm) rd csr true (uimm != 0) fun old => old ||| uimm.setWidth 64

/-- CSRRCI (R489). -/
def execCsrrci (rd : RegNum) (csr : BitVec 12) (uimm : BitVec 5) (s : State) : Host.Outcome State Fault Refusal :=
  csrAccess s (.csrrci rd csr uimm) rd csr true (uimm != 0) fun old => old &&& ~~~ uimm.setWidth 64

end Sys2Proof.Machine
end

