-- ==== Sys2Proof/Machine/Float.lean ====
section
/-!
DEFINITION. IEEE 754-2008 arithmetic on binary32, binary64 and binary128 as R532 to R539 and R570 restate it: exact
integer arithmetic and one rounding, with the canonical NaN and tininess after rounding.

A finite value is (-1)^neg * mant * 2^exp with integers mant and exp. Every function is structurally recursive or plain
arithmetic, so that the kernel evaluates it.
-/
namespace Sys2Proof.Machine

/-- The formats S, D and Q (R537). -/
inductive Fmt | s | d | q
  deriving DecidableEq, Repr, Inhabited

/-- n, the width of the format. -/
def Fmt.width : Fmt → Nat
  | .s => 32
  | .d => 64
  | .q => 128

/-- w, the width of the exponent field. -/
def Fmt.expBits : Fmt → Nat
  | .s => 8
  | .d => 11
  | .q => 15

/-- t, the width of the trailing significand. -/
def Fmt.fracBits : Fmt → Nat
  | .s => 23
  | .d => 52
  | .q => 112

/-- The bias, 2^(w-1) - 1. -/
def Fmt.bias (t : Fmt) : Nat := 2 ^ (t.expBits - 1) - 1

/-- emin = 1 - bias. -/
def Fmt.emin (t : Fmt) : Int := 1 - (t.bias : Int)

/-- The exponent of the smallest subnormal, emin - t. -/
def Fmt.ulpExp (t : Fmt) : Int := t.emin - (t.fracBits : Int)

/-- The pattern of +infinity. -/
def Fmt.infBits (t : Fmt) : Nat := (2 ^ t.expBits - 1) * 2 ^ t.fracBits

/-- The canonical NaN (R533). -/
def Fmt.nanBits (t : Fmt) : Nat := t.infBits + 2 ^ (t.fracBits - 1)

/-- The sign bit's weight. -/
def Fmt.signBit (t : Fmt) : Nat := 2 ^ (t.width - 1)

/-- What a pattern denotes (R537). -/
inductive FpVal
  | nan (signaling : Bool)
  | inf (neg : Bool)
  | fin (neg : Bool) (mant : Nat) (exp : Int)
  deriving DecidableEq, Repr, Inhabited

/-- A result pattern with the exceptions it raises. -/
structure FpResult where
  bits  : Nat
  flags : FpFlags
  deriving DecidableEq, Repr, Inhabited

/-- The sign bit of a pattern. -/
def signOf (t : Fmt) (b : Nat) : Bool := b / t.signBit % 2 == 1

/-- The exponent field of a pattern. -/
def expOf (t : Fmt) (b : Nat) : Nat := b / 2 ^ t.fracBits % 2 ^ t.expBits

/-- The trailing significand of a pattern. -/
def fracOf (t : Fmt) (b : Nat) : Nat := b % 2 ^ t.fracBits

/-- The value a pattern denotes (R537): a NaN whose top fraction bit is 0 is signaling (R533). -/
def decodeFp (t : Fmt) (b : Nat) : FpVal :=
  if expOf t b = 2 ^ t.expBits - 1 then
    if fracOf t b = 0 then .inf (signOf t b) else .nan (fracOf t b / 2 ^ (t.fracBits - 1) == 0)
  else if expOf t b = 0 then .fin (signOf t b) (fracOf t b) t.ulpExp
  else .fin (signOf t b) (2 ^ t.fracBits + fracOf t b) (t.ulpExp + ((expOf t b : Int) - 1))

/-- A magnitude pattern with a sign. -/
def withSign (t : Fmt) (neg : Bool) (mag : Nat) : Nat := if neg then t.signBit + mag else mag

/-- The canonical NaN, with the invalid flag where an operand was signaling or the operation is invalid (R532). -/
def nanResult (t : Fmt) (invalid : Bool) : FpResult := ⟨t.nanBits, if invalid then flagNV else noFlags⟩

/-- A signed zero, no flag. -/
def zeroResult (t : Fmt) (neg : Bool) : FpResult := ⟨withSign t neg 0, noFlags⟩

/-- A signed infinity, no flag. -/
def infResult (t : Fmt) (neg : Bool) : FpResult := ⟨withSign t neg t.infBits, noFlags⟩

/-! ### Rounding (R538) -/

/-- Whether a magnitude is rounded up: `odd` is the parity of what is kept, `rem` of `2 * half` what is dropped, and
`sticky` says that the exact value is above it by less than one unit of `rem`. -/
def roundsUp (m : Rm) (neg odd : Bool) (rem half : Nat) (sticky : Bool) : Bool :=
  match m with
  | .rne => half < rem || (rem == half && (sticky || odd))
  | .rmm => half ≤ rem
  | .rtz => false
  | .rdn => neg && (rem != 0 || sticky)
  | .rup => !neg && (rem != 0 || sticky)

/-- Round mant * 2^exp (plus less than one unit where `sticky`) to an integer multiple of 2^quantum: the multiple, and
whether it differs from the exact value. -/
def roundTo (m : Rm) (neg : Bool) (mant : Nat) (exp : Int) (sticky : Bool) (quantum : Int) : Nat × Bool :=
  if quantum ≤ exp then (mant * 2 ^ (exp - quantum).toNat, sticky)
  else
    let d := (quantum - exp).toNat
    let kept := mant / 2 ^ d
    let rem := mant % 2 ^ d
    let up := roundsUp m neg (kept % 2 == 1) rem (2 ^ (d - 1)) sticky
    (if up then kept + 1 else kept, rem != 0 || sticky)

/-- What overflow gives, by mode and sign (R538 step 4). -/
def overflowResult (t : Fmt) (m : Rm) (neg : Bool) : FpResult :=
  let toInf := match m with
    | .rne | .rmm => true
    | .rtz => false
    | .rdn => neg
    | .rup => !neg
  ⟨withSign t neg (if toInf then t.infBits else t.infBits - 1), flagOF ||| flagNX⟩

/-- `Round_T` (R538) of the nonzero value (-1)^neg * mant * 2^exp, plus less than one unit of it where `sticky`. The value
with unbounded exponent range decides tininess; the result is rounded once, to the quantum of its binade or of the
subnormals. -/
def roundFp (t : Fmt) (m : Rm) (neg : Bool) (mant : Nat) (exp : Int) (sticky : Bool) : FpResult :=
  let q := exp + (mant.log2 : Int) - (t.fracBits : Int)
  let r := roundTo m neg mant exp sticky q
  let top := if r.1 = 2 ^ (t.fracBits + 1) then q + (t.fracBits : Int) + 1 else q + (t.fracBits : Int)
  let tiny := top < t.emin
  let quantum := if q < t.ulpExp then t.ulpExp else q
  let y := roundTo m neg mant exp sticky quantum
  let mag := (quantum - t.ulpExp).toNat * 2 ^ t.fracBits + y.1
  if t.infBits ≤ mag then overflowResult t m neg
  else ⟨withSign t neg mag, if y.2 then (if tiny then flagUF ||| flagNX else flagNX) else noFlags⟩

/-- `Round_T` with the sign of a zero given (R538 step 1). -/
def roundOrZero (t : Fmt) (m : Rm) (neg : Bool) (mant : Nat) (exp : Int) (zeroNeg : Bool) : FpResult :=
  if mant = 0 then zeroResult t zeroNeg else roundFp t m neg mant exp false

/-! ### The operations (R539) -/

/-- A finite value as an integer multiple of 2^e, for e at most its exponent. -/
def scaled (neg : Bool) (mant : Nat) (exp e : Int) : Int :=
  if neg then -((mant * 2 ^ (exp - e).toNat : Nat) : Int) else ((mant * 2 ^ (exp - e).toNat : Nat) : Int)

/-- The sum of two finite values with one rounding (R539): an exact zero has the operands' sign where they are zeros of
one sign, else it is +0, or -0 when rounding down. -/
def addFinite (t : Fmt) (m : Rm) (na : Bool) (ma : Nat) (ea : Int) (nb : Bool) (mb : Nat) (eb : Int) : FpResult :=
  let e := if ea ≤ eb then ea else eb
  let sum := scaled na ma ea e + scaled nb mb eb e
  let zeroNeg := if ma = 0 ∧ mb = 0 ∧ na = nb then na else m == .rdn
  roundOrZero t m (decide (sum < 0)) sum.natAbs e zeroNeg

/-- Invert the sign of a value. -/
def FpVal.negate : FpVal → FpVal
  | .nan sg => .nan sg
  | .inf n => .inf !n
  | .fin n m e => .fin (!n) m e

/-- The value is a signaling NaN. -/
def FpVal.isSignaling : FpVal → Bool
  | .nan sg => sg
  | _ => false

/-- The value is a NaN. -/
def FpVal.isNan : FpVal → Bool
  | .nan _ => true
  | _ => false

/-- `add_T` (R539). -/
def addFp (t : Fmt) (m : Rm) (a b : FpVal) : FpResult :=
  match a, b with
  | .nan sa, b => nanResult t (sa || b.isSignaling)
  | .inf _, .nan sb => nanResult t sb
  | .fin .., .nan sb => nanResult t sb
  | .inf na, .inf nb => if na = nb then infResult t na else nanResult t true
  | .inf na, .fin .. => infResult t na
  | .fin .., .inf nb => infResult t nb
  | .fin na ma ea, .fin nb mb eb => addFinite t m na ma ea nb mb eb

/-- `sub_T` (R539): addition of the negated second operand. -/
def subFp (t : Fmt) (m : Rm) (a b : FpVal) : FpResult := addFp t m a b.negate

/-- `mul_T` (R539). -/
def mulFp (t : Fmt) (m : Rm) (a b : FpVal) : FpResult :=
  match a, b with
  | .nan sa, b => nanResult t (sa || b.isSignaling)
  | .inf _, .nan sb => nanResult t sb
  | .fin .., .nan sb => nanResult t sb
  | .inf na, .inf nb => infResult t (na != nb)
  | .inf na, .fin nb mb _ => if mb = 0 then nanResult t true else infResult t (na != nb)
  | .fin na ma _, .inf nb => if ma = 0 then nanResult t true else infResult t (na != nb)
  | .fin na ma ea, .fin nb mb eb => roundOrZero t m (na != nb) (ma * mb) (ea + eb) (na != nb)

/-- The quotient of two nonzero finite values: enough quotient bits, and whether more follow. -/
def divFinite (t : Fmt) (m : Rm) (neg : Bool) (ma : Nat) (ea : Int) (mb : Nat) (eb : Int) : FpResult :=
  let sh := 2 * t.fracBits + 5
  let n := ma * 2 ^ sh
  roundFp t m neg (n / mb) (ea - eb - (sh : Int)) (n % mb != 0)

/-- `div_T` (R539). -/
def divFp (t : Fmt) (m : Rm) (a b : FpVal) : FpResult :=
  match a, b with
  | .nan sa, b => nanResult t (sa || b.isSignaling)
  | .inf _, .nan sb => nanResult t sb
  | .fin .., .nan sb => nanResult t sb
  | .inf _, .inf _ => nanResult t true
  | .inf na, .fin nb _ _ => infResult t (na != nb)
  | .fin na _ _, .inf nb => zeroResult t (na != nb)
  | .fin na ma ea, .fin nb mb eb =>
    if mb = 0 then
      if ma = 0 then nanResult t true else ⟨(infResult t (na != nb)).bits, flagDZ⟩
    else if ma = 0 then zeroResult t (na != nb)
    else divFinite t m (na != nb) ma ea mb eb

/-- The integer square root of n, bit by bit: `r` plus the largest multiple below 2^bits that fits. -/
def isqrtFrom (n : Nat) : Nat → Nat → Nat
  | 0, r => r
  | bits + 1, r =>
    if (r + 2 ^ bits) * (r + 2 ^ bits) ≤ n then isqrtFrom n bits (r + 2 ^ bits) else isqrtFrom n bits r

/-- The square root of a positive finite value. -/
def sqrtFinite (t : Fmt) (m : Rm) (mant : Nat) (exp : Int) : FpResult :=
  let odd := exp % 2 == 1
  let k := t.fracBits + 3
  let n := (if odd then 2 * mant else mant) * 2 ^ (2 * k)
  let e := (if odd then exp - 1 else exp) / 2 - (k : Int)
  let r := isqrtFrom n (2 * t.fracBits + 6) 0
  roundFp t m false r e (r * r != n)

/-- `sqrt_T` (R539). -/
def sqrtFp (t : Fmt) (m : Rm) (a : FpVal) : FpResult :=
  match a with
  | .nan sa => nanResult t sa
  | .inf na => if na then nanResult t true else infResult t false
  | .fin na ma ea => if ma = 0 then zeroResult t na else if na then nanResult t true else sqrtFinite t m ma ea

/-- One of the multiplicands is infinite and the other zero: invalid even with a quiet NaN addend (R539). -/
def infTimesZero (a b : FpVal) : Bool :=
  match a, b with
  | .inf _, .fin _ mb _ => mb == 0
  | .fin _ ma _, .inf _ => ma == 0
  | _, _ => false

/-- The sign of a non-NaN value. -/
def FpVal.neg : FpVal → Bool
  | .nan _ => false
  | .inf n => n
  | .fin n _ _ => n

/-- `fma_T` (R539): a * b + c with one rounding. -/
def fmaFp (t : Fmt) (m : Rm) (a b c : FpVal) : FpResult :=
  if infTimesZero a b then nanResult t true
  else if a.isNan || b.isNan || c.isNan then nanResult t (a.isSignaling || b.isSignaling || c.isSignaling)
  else
    let ps := a.neg != b.neg
    match a, b, c with
    | .fin _ ma ea, .fin _ mb eb, .fin nc mc ec => addFinite t m ps (ma * mb) (ea + eb) nc mc ec
    | .fin .., .fin .., c => infResult t c.neg
    | _, _, .inf nc => if nc = ps then infResult t ps else nanResult t true
    | _, _, _ => infResult t ps

/-! ### Comparison, minimum, maximum, classification -/

/-- The order of two non-NaN values: exact comparison, +0 equal to -0 (R566, R567). -/
def ltFp (a b : FpVal) : Bool :=
  match a, b with
  | .fin na ma ea, .fin nb mb eb =>
    let e := if ea ≤ eb then ea else eb
    scaled na ma ea e < scaled nb mb eb e
  | .inf na, .inf nb => na && !nb
  | .inf na, .fin .. => na
  | .fin .., .inf nb => !nb
  | _, _ => false

/-- Equality of two non-NaN values (R566). -/
def eqFp (a b : FpVal) : Bool :=
  match a, b with
  | .nan _, _ => false
  | _, .nan _ => false
  | a, b => !ltFp a b && !ltFp b a

/-- FEQ: quiet comparison (R566). -/
def feqFp (a b : FpVal) : Bool × FpFlags :=
  (eqFp a b, if a.isSignaling || b.isSignaling then flagNV else noFlags)

/-- FLT: signaling comparison (R567). -/
def fltFp (a b : FpVal) : Bool × FpFlags :=
  if a.isNan || b.isNan then (false, flagNV) else (ltFp a b, noFlags)

/-- FLE: signaling comparison (R568). -/
def fleFp (a b : FpVal) : Bool × FpFlags :=
  if a.isNan || b.isNan then (false, flagNV) else (ltFp a b || eqFp a b, noFlags)

/-- FMIN and FMAX (R547, R548) on patterns: the number where one operand is a NaN, the canonical NaN where both are;
-0 counts as less than +0; a signaling operand raises NV. -/
def minMaxFp (t : Fmt) (max : Bool) (a b : Nat) : FpResult :=
  let va := decodeFp t a
  let vb := decodeFp t b
  let flags := if va.isSignaling || vb.isSignaling then flagNV else noFlags
  let aFirst := if max then ltFp vb va || (eqFp va vb && !va.neg && vb.neg)
    else ltFp va vb || (eqFp va vb && va.neg && !vb.neg)
  ⟨if va.isNan && vb.isNan then t.nanBits else if va.isNan then b else if vb.isNan then a
    else if aFirst then a else b, flags⟩

/-- FCLASS's bit number (R569). -/
def classFp (t : Fmt) (a : Nat) : Nat :=
  match decodeFp t a with
  | .nan sg => if sg then 8 else 9
  | .inf n => if n then 0 else 7
  | .fin n m _ =>
    if m = 0 then (if n then 3 else 4)
    else if expOf t a = 0 then (if n then 2 else 5)
    else (if n then 1 else 6)

/-! ### Conversions -/

/-- `FtoI_T` (R570): the rounded integer clipped to [lo, hi]. -/
def toIntFp (m : Rm) (lo hi : Int) (a : FpVal) : Int × FpFlags :=
  match a with
  | .nan _ => (hi, flagNV)
  | .inf n => (if n then lo else hi, flagNV)
  | .fin n ma ea =>
    let r := roundTo m n ma ea false 0
    let i : Int := if n then -(r.1 : Int) else (r.1 : Int)
    if i < lo then (lo, flagNV) else if hi < i then (hi, flagNV) else (i, if r.2 then flagNX else noFlags)

/-- An integer rounded to a format (R557): zero gives +0. -/
def ofIntFp (t : Fmt) (m : Rm) (i : Int) : FpResult := roundOrZero t m (decide (i < 0)) i.natAbs 0 false

/-- convertFormat (R631, R632): narrowing rounds, widening is exact; NaNs become canonical. -/
def convertFp (t : Fmt) (m : Rm) (a : FpVal) : FpResult :=
  match a with
  | .nan sg => nanResult t sg
  | .inf n => infResult t n
  | .fin n ma ea => roundOrZero t m n ma ea n

/-! ### Sign injection (R561 to R563) -/

/-- A pattern with its sign bit replaced. -/
def setSign (t : Fmt) (neg : Bool) (a : Nat) : Nat := withSign t neg (a % t.signBit)

end Sys2Proof.Machine
end

