-- ==== Sys2Proof/Machine/FloatOps.lean ====
section
/-!
DEFINITION. The shapes the floating-point meanings share, for every format: operands through the NaN-boxing check,
results boxed, flags accrued, and the rounding-mode check before anything else (R530, R531).
-/
namespace Sys2Proof.Machine

/-- `unbox_n(f[r])` (R52): the n-bit operand, the canonical NaN where the bits above it are not all ones. -/
def State.fread (s : State) (t : Fmt) (r : RegNum) : Nat :=
  let v := (lowF s.flen (s.f[r.toNat]'r.isLt)).toNat
  if s.flen ≤ t.width ∨ v / 2 ^ t.width = 2 ^ (s.flen - t.width) - 1 then v % 2 ^ t.width else t.nanBits

/-- The value of an operand. -/
def State.fval (s : State) (t : Fmt) (r : RegNum) : FpVal := decodeFp t (s.fread t r)

/-- Write an n-bit pattern to f[r], boxed (R53). -/
def State.fwrite (s : State) (t : Fmt) (r : RegNum) (v : Nat) : State := s.wf t.width r (BitVec.ofNat 128 v)

/-- Complete an instruction whose floating-point result goes to f[rd] with its flags accrued (R530, R56). -/
def finishF (s : State) (t : Fmt) (rd : RegNum) (r : FpResult) : Host.Outcome State Fault Refusal :=
  .next (((s.fwrite t rd r.bits).accrue r.flags).retire 4)

/-- Complete an instruction whose integer result goes to x[rd] with its flags accrued. -/
def finishFX (s : State) (rd : RegNum) (v : Word) (flags : FpFlags) : Host.Outcome State Fault Refusal :=
  .next (((s.wx rd v).accrue flags).retire 4)

/-- The rounding-mode check (R531), made before any operand is read: `i` is the instruction reported where it fails. -/
def withRm (s : State) (i : Instr) (rm : BitVec 3) (k : Rm → Host.Outcome State Fault Refusal) :
    Host.Outcome State Fault Refusal :=
  match effectiveRm s rm with
  | some m => k m
  | none => raiseIllegal s i

/-- Two operands, one rounded result (R542 to R545). -/
def arith2 (s : State) (i : Instr) (t : Fmt) (op : Fmt → Rm → FpVal → FpVal → FpResult) (rd rs1 rs2 : RegNum)
    (rm : BitVec 3) : Host.Outcome State Fault Refusal :=
  withRm s i rm fun m => finishF s t rd (op t m (s.fval t rs1) (s.fval t rs2))

/-- Square root (R546). -/
def arithSqrt (s : State) (i : Instr) (t : Fmt) (rd rs1 : RegNum) (rm : BitVec 3) : Host.Outcome State Fault Refusal :=
  withRm s i rm fun m => finishF s t rd (sqrtFp t m (s.fval t rs1))

/-- A value, negated where asked. -/
def negateIf (b : Bool) (v : FpVal) : FpVal := if b then v.negate else v

/-- Fused multiply-add with the product or the addend negated (R549 to R552). -/
def arithFma (s : State) (i : Instr) (t : Fmt) (negProduct negAddend : Bool) (rd rs1 rs2 rs3 : RegNum)
    (rm : BitVec 3) : Host.Outcome State Fault Refusal :=
  withRm s i rm fun m => finishF s t rd
    (fmaFp t m (negateIf negProduct (s.fval t rs1)) (s.fval t rs2) (negateIf negAddend (s.fval t rs3)))

/-- Minimum or maximum (R547, R548). -/
def arithMinMax (s : State) (t : Fmt) (max : Bool) (rd rs1 rs2 : RegNum) : Host.Outcome State Fault Refusal :=
  finishF s t rd (minMaxFp t max (s.fread t rs1) (s.fread t rs2))

/-- A comparison (R566 to R568). -/
def compareF (s : State) (t : Fmt) (op : FpVal → FpVal → Bool × FpFlags) (rd rs1 rs2 : RegNum) :
    Host.Outcome State Fault Refusal :=
  finishFX s rd (boolWord (op (s.fval t rs1) (s.fval t rs2)).1) (op (s.fval t rs1) (s.fval t rs2)).2

/-- Sign injection (R561 to R563): `sign` of the operands' signs, everything else from rs1, no flag. -/
def signInject (s : State) (t : Fmt) (sign : Bool → Bool → Bool) (rd rs1 rs2 : RegNum) :
    Host.Outcome State Fault Refusal :=
  .next ((s.fwrite t rd (setSign t (sign (signOf t (s.fread t rs1)) (signOf t (s.fread t rs2))) (s.fread t rs1))).retire 4)

/-- Classification (R569), no flag. -/
def classifyF (s : State) (t : Fmt) (rd rs1 : RegNum) : Host.Outcome State Fault Refusal :=
  finishX s 4 rd (BitVec.ofNat 64 (2 ^ classFp t (s.fread t rs1)))

/-- The integer types of the conversions (R553 to R560). -/
inductive IntTy | w | wu | l | lu
  deriving DecidableEq, Repr, Inhabited

/-- The least value of an integer type. -/
def IntTy.lo : IntTy → Int
  | .w => -2 ^ 31
  | .wu => 0
  | .l => -2 ^ 63
  | .lu => 0

/-- The greatest value of an integer type. -/
def IntTy.hi : IntTy → Int
  | .w => 2 ^ 31 - 1
  | .wu => 2 ^ 32 - 1
  | .l => 2 ^ 63 - 1
  | .lu => 2 ^ 64 - 1

/-- An integer of the type as it is put in an x register: 32-bit results, unsigned ones too, are sign-extended (R554). -/
def IntTy.toWord (ty : IntTy) (i : Int) : Word :=
  match ty with
  | .w | .wu => (BitVec.ofInt 32 i).signExtend 64
  | .l | .lu => BitVec.ofInt 64 i

/-- The integer of the type in an x register: 32-bit types take the low 32 bits (R557, R558). -/
def IntTy.ofWord (ty : IntTy) (v : Word) : Int :=
  match ty with
  | .w => (v.setWidth 32).toInt
  | .wu => ((v.setWidth 32).toNat : Int)
  | .l => v.toInt
  | .lu => (v.toNat : Int)

/-- Conversion to an integer (R570). -/
def convertToInt (s : State) (i : Instr) (t : Fmt) (ty : IntTy) (rd rs1 : RegNum) (rm : BitVec 3) :
    Host.Outcome State Fault Refusal :=
  withRm s i rm fun m =>
    finishFX s rd (ty.toWord (toIntFp m ty.lo ty.hi (s.fval t rs1)).1) (toIntFp m ty.lo ty.hi (s.fval t rs1)).2

/-- Conversion from an integer (R557 to R560). -/
def convertOfInt (s : State) (i : Instr) (t : Fmt) (ty : IntTy) (rd rs1 : RegNum) (rm : BitVec 3) :
    Host.Outcome State Fault Refusal :=
  withRm s i rm fun m => finishF s t rd (ofIntFp t m (ty.ofWord (s.rx rs1)))

/-- Conversion between formats (R631, R632). -/
def convertFmt (s : State) (i : Instr) (src dst : Fmt) (rd rs1 : RegNum) (rm : BitVec 3) :
    Host.Outcome State Fault Refusal :=
  withRm s i rm fun m => finishF s dst rd (convertFp dst m (s.fval src rs1))

/-- FMV.X.W and FMV.X.D (R564, R636): the low bits of the register, sign-extended, without a boxing check. -/
def moveToX (s : State) (n : Nat) (rd rs1 : RegNum) : Host.Outcome State Fault Refusal :=
  finishX s 4 rd ((BitVec.ofNat n (s.rfBits n rs1).toNat).signExtend 64)

/-- FMV.W.X and FMV.D.X (R565, R637): the low bits of x[rs1], boxed. -/
def moveToF (s : State) (n : Nat) (rd rs1 : RegNum) : Host.Outcome State Fault Refusal :=
  .next ((s.wf n rd ((s.rx rs1).setWidth 128)).retire 4)

end Sys2Proof.Machine
end

