-- ==== Sys2Proof/Machine/FloatD.lean ====
section
/-!
DEFINITION. The D extension (spec/47_d_double.md).
-/
namespace Sys2Proof.Machine

/-- FLD (R610). -/
def execFld (rd rs1 : RegNum) (imm : BitVec 12) (s : State) : Host.Outcome State Fault Refusal :=
  loadF s 4 8 rd (s.address rs1 (immValue imm))

/-- FSD (R611). -/
def execFsd (rs2 rs1 : RegNum) (imm : BitVec 12) (s : State) : Host.Outcome State Fault Refusal :=
  storeF s 4 8 rs2 (s.address rs1 (immValue imm))

/-- FMADD.D (R619). -/
def execFmaddD (rd rs1 rs2 rs3 : RegNum) (rm : BitVec 3) (s : State) : Host.Outcome State Fault Refusal :=
  arithFma s (.fmaddD rd rs1 rs2 rs3 rm) .d false false rd rs1 rs2 rs3 rm

/-- FMSUB.D (R620). -/
def execFmsubD (rd rs1 rs2 rs3 : RegNum) (rm : BitVec 3) (s : State) : Host.Outcome State Fault Refusal :=
  arithFma s (.fmsubD rd rs1 rs2 rs3 rm) .d false true rd rs1 rs2 rs3 rm

/-- FNMSUB.D (R621). -/
def execFnmsubD (rd rs1 rs2 rs3 : RegNum) (rm : BitVec 3) (s : State) : Host.Outcome State Fault Refusal :=
  arithFma s (.fnmsubD rd rs1 rs2 rs3 rm) .d true false rd rs1 rs2 rs3 rm

/-- FNMADD.D (R622). -/
def execFnmaddD (rd rs1 rs2 rs3 : RegNum) (rm : BitVec 3) (s : State) : Host.Outcome State Fault Refusal :=
  arithFma s (.fnmaddD rd rs1 rs2 rs3 rm) .d true true rd rs1 rs2 rs3 rm

/-- FADD.D (R612). -/
def execFaddD (rd rs1 rs2 : RegNum) (rm : BitVec 3) (s : State) : Host.Outcome State Fault Refusal :=
  arith2 s (.faddD rd rs1 rs2 rm) .d addFp rd rs1 rs2 rm

/-- FSUB.D (R613). -/
def execFsubD (rd rs1 rs2 : RegNum) (rm : BitVec 3) (s : State) : Host.Outcome State Fault Refusal :=
  arith2 s (.fsubD rd rs1 rs2 rm) .d subFp rd rs1 rs2 rm

/-- FMUL.D (R614). -/
def execFmulD (rd rs1 rs2 : RegNum) (rm : BitVec 3) (s : State) : Host.Outcome State Fault Refusal :=
  arith2 s (.fmulD rd rs1 rs2 rm) .d mulFp rd rs1 rs2 rm

/-- FDIV.D (R615). -/
def execFdivD (rd rs1 rs2 : RegNum) (rm : BitVec 3) (s : State) : Host.Outcome State Fault Refusal :=
  arith2 s (.fdivD rd rs1 rs2 rm) .d divFp rd rs1 rs2 rm

/-- FSQRT.D (R616). -/
def execFsqrtD (rd rs1 : RegNum) (rm : BitVec 3) (s : State) : Host.Outcome State Fault Refusal :=
  arithSqrt s (.fsqrtD rd rs1 rm) .d rd rs1 rm

/-- FSGNJ.D (R633). -/
def execFsgnjD (rd rs1 rs2 : RegNum) (s : State) : Host.Outcome State Fault Refusal :=
  signInject s .d (fun _ b => b) rd rs1 rs2

/-- FSGNJN.D (R634). -/
def execFsgnjnD (rd rs1 rs2 : RegNum) (s : State) : Host.Outcome State Fault Refusal :=
  signInject s .d (fun _ b => !b) rd rs1 rs2

/-- FSGNJX.D (R635). -/
def execFsgnjxD (rd rs1 rs2 : RegNum) (s : State) : Host.Outcome State Fault Refusal :=
  signInject s .d (fun a b => a != b) rd rs1 rs2

/-- FMIN.D (R617). -/
def execFminD (rd rs1 rs2 : RegNum) (s : State) : Host.Outcome State Fault Refusal :=
  arithMinMax s .d false rd rs1 rs2

/-- FMAX.D (R618). -/
def execFmaxD (rd rs1 rs2 : RegNum) (s : State) : Host.Outcome State Fault Refusal :=
  arithMinMax s .d true rd rs1 rs2

/-- FCVT.S.D (R631). -/
def execFcvtSD (rd rs1 : RegNum) (rm : BitVec 3) (s : State) : Host.Outcome State Fault Refusal :=
  convertFmt s (.fcvtSD rd rs1 rm) .d .s rd rs1 rm

/-- FCVT.D.S (R632). -/
def execFcvtDS (rd rs1 : RegNum) (rm : BitVec 3) (s : State) : Host.Outcome State Fault Refusal :=
  convertFmt s (.fcvtDS rd rs1 rm) .s .d rd rs1 rm

/-- FEQ.D (R638). -/
def execFeqD (rd rs1 rs2 : RegNum) (s : State) : Host.Outcome State Fault Refusal :=
  compareF s .d feqFp rd rs1 rs2

/-- FLT.D (R639). -/
def execFltD (rd rs1 rs2 : RegNum) (s : State) : Host.Outcome State Fault Refusal :=
  compareF s .d fltFp rd rs1 rs2

/-- FLE.D (R640). -/
def execFleD (rd rs1 rs2 : RegNum) (s : State) : Host.Outcome State Fault Refusal :=
  compareF s .d fleFp rd rs1 rs2

/-- FCLASS.D (R641). -/
def execFclassD (rd rs1 : RegNum) (s : State) : Host.Outcome State Fault Refusal :=
  classifyF s .d rd rs1

/-- FCVT.W.D (R623). -/
def execFcvtWD (rd rs1 : RegNum) (rm : BitVec 3) (s : State) : Host.Outcome State Fault Refusal :=
  convertToInt s (.fcvtWD rd rs1 rm) .d .w rd rs1 rm

/-- FCVT.WU.D (R624). -/
def execFcvtWuD (rd rs1 : RegNum) (rm : BitVec 3) (s : State) : Host.Outcome State Fault Refusal :=
  convertToInt s (.fcvtWuD rd rs1 rm) .d .wu rd rs1 rm

/-- FCVT.D.W (R627). -/
def execFcvtDW (rd rs1 : RegNum) (rm : BitVec 3) (s : State) : Host.Outcome State Fault Refusal :=
  convertOfInt s (.fcvtDW rd rs1 rm) .d .w rd rs1 rm

/-- FCVT.D.WU (R628). -/
def execFcvtDWu (rd rs1 : RegNum) (rm : BitVec 3) (s : State) : Host.Outcome State Fault Refusal :=
  convertOfInt s (.fcvtDWu rd rs1 rm) .d .wu rd rs1 rm

/-- FCVT.L.D (R625). -/
def execFcvtLD (rd rs1 : RegNum) (rm : BitVec 3) (s : State) : Host.Outcome State Fault Refusal :=
  convertToInt s (.fcvtLD rd rs1 rm) .d .l rd rs1 rm

/-- FCVT.LU.D (R626). -/
def execFcvtLuD (rd rs1 : RegNum) (rm : BitVec 3) (s : State) : Host.Outcome State Fault Refusal :=
  convertToInt s (.fcvtLuD rd rs1 rm) .d .lu rd rs1 rm

/-- FCVT.D.L (R629). -/
def execFcvtDL (rd rs1 : RegNum) (rm : BitVec 3) (s : State) : Host.Outcome State Fault Refusal :=
  convertOfInt s (.fcvtDL rd rs1 rm) .d .l rd rs1 rm

/-- FCVT.D.LU (R630). -/
def execFcvtDLu (rd rs1 : RegNum) (rm : BitVec 3) (s : State) : Host.Outcome State Fault Refusal :=
  convertOfInt s (.fcvtDLu rd rs1 rm) .d .lu rd rs1 rm

/-- FMV.X.D (R636). -/
def execFmvXD (rd rs1 : RegNum) (s : State) : Host.Outcome State Fault Refusal :=
  moveToX s 64 rd rs1

/-- FMV.D.X (R637). -/
def execFmvDX (rd rs1 : RegNum) (s : State) : Host.Outcome State Fault Refusal :=
  moveToF s 64 rd rs1

end Sys2Proof.Machine
end

