-- ==== Sys2Proof/Machine/FloatQ.lean ====
section
/-!
DEFINITION. The Q extension (spec/48_q_quad.md).
-/
namespace Sys2Proof.Machine

/-- FLQ (R670). -/
def execFlq (rd rs1 : RegNum) (imm : BitVec 12) (s : State) : Host.Outcome State Fault Refusal :=
  loadF s 4 16 rd (s.address rs1 (immValue imm))

/-- FSQ (R671). -/
def execFsq (rs2 rs1 : RegNum) (imm : BitVec 12) (s : State) : Host.Outcome State Fault Refusal :=
  storeF s 4 16 rs2 (s.address rs1 (immValue imm))

/-- FMADD.Q (R679). -/
def execFmaddQ (rd rs1 rs2 rs3 : RegNum) (rm : BitVec 3) (s : State) : Host.Outcome State Fault Refusal :=
  arithFma s (.fmaddQ rd rs1 rs2 rs3 rm) .q false false rd rs1 rs2 rs3 rm

/-- FMSUB.Q (R680). -/
def execFmsubQ (rd rs1 rs2 rs3 : RegNum) (rm : BitVec 3) (s : State) : Host.Outcome State Fault Refusal :=
  arithFma s (.fmsubQ rd rs1 rs2 rs3 rm) .q false true rd rs1 rs2 rs3 rm

/-- FNMSUB.Q (R681). -/
def execFnmsubQ (rd rs1 rs2 rs3 : RegNum) (rm : BitVec 3) (s : State) : Host.Outcome State Fault Refusal :=
  arithFma s (.fnmsubQ rd rs1 rs2 rs3 rm) .q true false rd rs1 rs2 rs3 rm

/-- FNMADD.Q (R682). -/
def execFnmaddQ (rd rs1 rs2 rs3 : RegNum) (rm : BitVec 3) (s : State) : Host.Outcome State Fault Refusal :=
  arithFma s (.fnmaddQ rd rs1 rs2 rs3 rm) .q true true rd rs1 rs2 rs3 rm

/-- FADD.Q (R672). -/
def execFaddQ (rd rs1 rs2 : RegNum) (rm : BitVec 3) (s : State) : Host.Outcome State Fault Refusal :=
  arith2 s (.faddQ rd rs1 rs2 rm) .q addFp rd rs1 rs2 rm

/-- FSUB.Q (R673). -/
def execFsubQ (rd rs1 rs2 : RegNum) (rm : BitVec 3) (s : State) : Host.Outcome State Fault Refusal :=
  arith2 s (.fsubQ rd rs1 rs2 rm) .q subFp rd rs1 rs2 rm

/-- FMUL.Q (R674). -/
def execFmulQ (rd rs1 rs2 : RegNum) (rm : BitVec 3) (s : State) : Host.Outcome State Fault Refusal :=
  arith2 s (.fmulQ rd rs1 rs2 rm) .q mulFp rd rs1 rs2 rm

/-- FDIV.Q (R675). -/
def execFdivQ (rd rs1 rs2 : RegNum) (rm : BitVec 3) (s : State) : Host.Outcome State Fault Refusal :=
  arith2 s (.fdivQ rd rs1 rs2 rm) .q divFp rd rs1 rs2 rm

/-- FSQRT.Q (R676). -/
def execFsqrtQ (rd rs1 : RegNum) (rm : BitVec 3) (s : State) : Host.Outcome State Fault Refusal :=
  arithSqrt s (.fsqrtQ rd rs1 rm) .q rd rs1 rm

/-- FSGNJ.Q (R695). -/
def execFsgnjQ (rd rs1 rs2 : RegNum) (s : State) : Host.Outcome State Fault Refusal :=
  signInject s .q (fun _ b => b) rd rs1 rs2

/-- FSGNJN.Q (R696). -/
def execFsgnjnQ (rd rs1 rs2 : RegNum) (s : State) : Host.Outcome State Fault Refusal :=
  signInject s .q (fun _ b => !b) rd rs1 rs2

/-- FSGNJX.Q (R697). -/
def execFsgnjxQ (rd rs1 rs2 : RegNum) (s : State) : Host.Outcome State Fault Refusal :=
  signInject s .q (fun a b => a != b) rd rs1 rs2

/-- FMIN.Q (R677). -/
def execFminQ (rd rs1 rs2 : RegNum) (s : State) : Host.Outcome State Fault Refusal :=
  arithMinMax s .q false rd rs1 rs2

/-- FMAX.Q (R678). -/
def execFmaxQ (rd rs1 rs2 : RegNum) (s : State) : Host.Outcome State Fault Refusal :=
  arithMinMax s .q true rd rs1 rs2

/-- FCVT.S.Q (R691). -/
def execFcvtSQ (rd rs1 : RegNum) (rm : BitVec 3) (s : State) : Host.Outcome State Fault Refusal :=
  convertFmt s (.fcvtSQ rd rs1 rm) .q .s rd rs1 rm

/-- FCVT.Q.S (R692). -/
def execFcvtQS (rd rs1 : RegNum) (rm : BitVec 3) (s : State) : Host.Outcome State Fault Refusal :=
  convertFmt s (.fcvtQS rd rs1 rm) .s .q rd rs1 rm

/-- FCVT.D.Q (R693). -/
def execFcvtDQ (rd rs1 : RegNum) (rm : BitVec 3) (s : State) : Host.Outcome State Fault Refusal :=
  convertFmt s (.fcvtDQ rd rs1 rm) .q .d rd rs1 rm

/-- FCVT.Q.D (R694). -/
def execFcvtQD (rd rs1 : RegNum) (rm : BitVec 3) (s : State) : Host.Outcome State Fault Refusal :=
  convertFmt s (.fcvtQD rd rs1 rm) .d .q rd rs1 rm

/-- FEQ.Q (R698). -/
def execFeqQ (rd rs1 rs2 : RegNum) (s : State) : Host.Outcome State Fault Refusal :=
  compareF s .q feqFp rd rs1 rs2

/-- FLT.Q (R699). -/
def execFltQ (rd rs1 rs2 : RegNum) (s : State) : Host.Outcome State Fault Refusal :=
  compareF s .q fltFp rd rs1 rs2

/-- FLE.Q (R700). -/
def execFleQ (rd rs1 rs2 : RegNum) (s : State) : Host.Outcome State Fault Refusal :=
  compareF s .q fleFp rd rs1 rs2

/-- FCLASS.Q (R701). -/
def execFclassQ (rd rs1 : RegNum) (s : State) : Host.Outcome State Fault Refusal :=
  classifyF s .q rd rs1

/-- FCVT.W.Q (R683). -/
def execFcvtWQ (rd rs1 : RegNum) (rm : BitVec 3) (s : State) : Host.Outcome State Fault Refusal :=
  convertToInt s (.fcvtWQ rd rs1 rm) .q .w rd rs1 rm

/-- FCVT.WU.Q (R684). -/
def execFcvtWuQ (rd rs1 : RegNum) (rm : BitVec 3) (s : State) : Host.Outcome State Fault Refusal :=
  convertToInt s (.fcvtWuQ rd rs1 rm) .q .wu rd rs1 rm

/-- FCVT.Q.W (R687). -/
def execFcvtQW (rd rs1 : RegNum) (rm : BitVec 3) (s : State) : Host.Outcome State Fault Refusal :=
  convertOfInt s (.fcvtQW rd rs1 rm) .q .w rd rs1 rm

/-- FCVT.Q.WU (R688). -/
def execFcvtQWu (rd rs1 : RegNum) (rm : BitVec 3) (s : State) : Host.Outcome State Fault Refusal :=
  convertOfInt s (.fcvtQWu rd rs1 rm) .q .wu rd rs1 rm

/-- FCVT.L.Q (R685). -/
def execFcvtLQ (rd rs1 : RegNum) (rm : BitVec 3) (s : State) : Host.Outcome State Fault Refusal :=
  convertToInt s (.fcvtLQ rd rs1 rm) .q .l rd rs1 rm

/-- FCVT.LU.Q (R686). -/
def execFcvtLuQ (rd rs1 : RegNum) (rm : BitVec 3) (s : State) : Host.Outcome State Fault Refusal :=
  convertToInt s (.fcvtLuQ rd rs1 rm) .q .lu rd rs1 rm

/-- FCVT.Q.L (R689). -/
def execFcvtQL (rd rs1 : RegNum) (rm : BitVec 3) (s : State) : Host.Outcome State Fault Refusal :=
  convertOfInt s (.fcvtQL rd rs1 rm) .q .l rd rs1 rm

/-- FCVT.Q.LU (R690). -/
def execFcvtQLu (rd rs1 : RegNum) (rm : BitVec 3) (s : State) : Host.Outcome State Fault Refusal :=
  convertOfInt s (.fcvtQLu rd rs1 rm) .q .lu rd rs1 rm

end Sys2Proof.Machine
end

