-- ==== Sys2Proof/Machine/FloatS.lean ====
section
/-!
DEFINITION. The F extension (spec/46_f_single.md).
-/
namespace Sys2Proof.Machine

/-- FLW (R540). -/
def execFlw (rd rs1 : RegNum) (imm : BitVec 12) (s : State) : Host.Outcome State Fault Refusal :=
  loadF s 4 4 rd (s.address rs1 (immValue imm))

/-- FSW (R541). -/
def execFsw (rs2 rs1 : RegNum) (imm : BitVec 12) (s : State) : Host.Outcome State Fault Refusal :=
  storeF s 4 4 rs2 (s.address rs1 (immValue imm))

/-- FMADD.S (R549). -/
def execFmaddS (rd rs1 rs2 rs3 : RegNum) (rm : BitVec 3) (s : State) : Host.Outcome State Fault Refusal :=
  arithFma s (.fmaddS rd rs1 rs2 rs3 rm) .s false false rd rs1 rs2 rs3 rm

/-- FMSUB.S (R550). -/
def execFmsubS (rd rs1 rs2 rs3 : RegNum) (rm : BitVec 3) (s : State) : Host.Outcome State Fault Refusal :=
  arithFma s (.fmsubS rd rs1 rs2 rs3 rm) .s false true rd rs1 rs2 rs3 rm

/-- FNMSUB.S (R551). -/
def execFnmsubS (rd rs1 rs2 rs3 : RegNum) (rm : BitVec 3) (s : State) : Host.Outcome State Fault Refusal :=
  arithFma s (.fnmsubS rd rs1 rs2 rs3 rm) .s true false rd rs1 rs2 rs3 rm

/-- FNMADD.S (R552). -/
def execFnmaddS (rd rs1 rs2 rs3 : RegNum) (rm : BitVec 3) (s : State) : Host.Outcome State Fault Refusal :=
  arithFma s (.fnmaddS rd rs1 rs2 rs3 rm) .s true true rd rs1 rs2 rs3 rm

/-- FADD.S (R542). -/
def execFaddS (rd rs1 rs2 : RegNum) (rm : BitVec 3) (s : State) : Host.Outcome State Fault Refusal :=
  arith2 s (.faddS rd rs1 rs2 rm) .s addFp rd rs1 rs2 rm

/-- FSUB.S (R543). -/
def execFsubS (rd rs1 rs2 : RegNum) (rm : BitVec 3) (s : State) : Host.Outcome State Fault Refusal :=
  arith2 s (.fsubS rd rs1 rs2 rm) .s subFp rd rs1 rs2 rm

/-- FMUL.S (R544). -/
def execFmulS (rd rs1 rs2 : RegNum) (rm : BitVec 3) (s : State) : Host.Outcome State Fault Refusal :=
  arith2 s (.fmulS rd rs1 rs2 rm) .s mulFp rd rs1 rs2 rm

/-- FDIV.S (R545). -/
def execFdivS (rd rs1 rs2 : RegNum) (rm : BitVec 3) (s : State) : Host.Outcome State Fault Refusal :=
  arith2 s (.fdivS rd rs1 rs2 rm) .s divFp rd rs1 rs2 rm

/-- FSQRT.S (R546). -/
def execFsqrtS (rd rs1 : RegNum) (rm : BitVec 3) (s : State) : Host.Outcome State Fault Refusal :=
  arithSqrt s (.fsqrtS rd rs1 rm) .s rd rs1 rm

/-- FSGNJ.S (R561). -/
def execFsgnjS (rd rs1 rs2 : RegNum) (s : State) : Host.Outcome State Fault Refusal :=
  signInject s .s (fun _ b => b) rd rs1 rs2

/-- FSGNJN.S (R562). -/
def execFsgnjnS (rd rs1 rs2 : RegNum) (s : State) : Host.Outcome State Fault Refusal :=
  signInject s .s (fun _ b => !b) rd rs1 rs2

/-- FSGNJX.S (R563). -/
def execFsgnjxS (rd rs1 rs2 : RegNum) (s : State) : Host.Outcome State Fault Refusal :=
  signInject s .s (fun a b => a != b) rd rs1 rs2

/-- FMIN.S (R547). -/
def execFminS (rd rs1 rs2 : RegNum) (s : State) : Host.Outcome State Fault Refusal :=
  arithMinMax s .s false rd rs1 rs2

/-- FMAX.S (R548). -/
def execFmaxS (rd rs1 rs2 : RegNum) (s : State) : Host.Outcome State Fault Refusal :=
  arithMinMax s .s true rd rs1 rs2

/-- FEQ.S (R566). -/
def execFeqS (rd rs1 rs2 : RegNum) (s : State) : Host.Outcome State Fault Refusal :=
  compareF s .s feqFp rd rs1 rs2

/-- FLT.S (R567). -/
def execFltS (rd rs1 rs2 : RegNum) (s : State) : Host.Outcome State Fault Refusal :=
  compareF s .s fltFp rd rs1 rs2

/-- FLE.S (R568). -/
def execFleS (rd rs1 rs2 : RegNum) (s : State) : Host.Outcome State Fault Refusal :=
  compareF s .s fleFp rd rs1 rs2

/-- FCLASS.S (R569). -/
def execFclassS (rd rs1 : RegNum) (s : State) : Host.Outcome State Fault Refusal :=
  classifyF s .s rd rs1

/-- FCVT.W.S (R553). -/
def execFcvtWS (rd rs1 : RegNum) (rm : BitVec 3) (s : State) : Host.Outcome State Fault Refusal :=
  convertToInt s (.fcvtWS rd rs1 rm) .s .w rd rs1 rm

/-- FCVT.WU.S (R554). -/
def execFcvtWuS (rd rs1 : RegNum) (rm : BitVec 3) (s : State) : Host.Outcome State Fault Refusal :=
  convertToInt s (.fcvtWuS rd rs1 rm) .s .wu rd rs1 rm

/-- FCVT.S.W (R557). -/
def execFcvtSW (rd rs1 : RegNum) (rm : BitVec 3) (s : State) : Host.Outcome State Fault Refusal :=
  convertOfInt s (.fcvtSW rd rs1 rm) .s .w rd rs1 rm

/-- FCVT.S.WU (R558). -/
def execFcvtSWu (rd rs1 : RegNum) (rm : BitVec 3) (s : State) : Host.Outcome State Fault Refusal :=
  convertOfInt s (.fcvtSWu rd rs1 rm) .s .wu rd rs1 rm

/-- FMV.X.W (R564). -/
def execFmvXW (rd rs1 : RegNum) (s : State) : Host.Outcome State Fault Refusal :=
  moveToX s 32 rd rs1

/-- FMV.W.X (R565). -/
def execFmvWX (rd rs1 : RegNum) (s : State) : Host.Outcome State Fault Refusal :=
  moveToF s 32 rd rs1

/-- FCVT.L.S (R555). -/
def execFcvtLS (rd rs1 : RegNum) (rm : BitVec 3) (s : State) : Host.Outcome State Fault Refusal :=
  convertToInt s (.fcvtLS rd rs1 rm) .s .l rd rs1 rm

/-- FCVT.LU.S (R556). -/
def execFcvtLuS (rd rs1 : RegNum) (rm : BitVec 3) (s : State) : Host.Outcome State Fault Refusal :=
  convertToInt s (.fcvtLuS rd rs1 rm) .s .lu rd rs1 rm

/-- FCVT.S.L (R559). -/
def execFcvtSL (rd rs1 : RegNum) (rm : BitVec 3) (s : State) : Host.Outcome State Fault Refusal :=
  convertOfInt s (.fcvtSL rd rs1 rm) .s .l rd rs1 rm

/-- FCVT.S.LU (R560). -/
def execFcvtSLu (rd rs1 : RegNum) (rm : BitVec 3) (s : State) : Host.Outcome State Fault Refusal :=
  convertOfInt s (.fcvtSLu rd rs1 rm) .s .lu rd rs1 rm

end Sys2Proof.Machine
end

