-- ==== Sys2Proof/Machine/Integer.lean ====
section
/-!
DEFINITION. The RV32I integer computational instructions, at either XLEN (spec/40_rv32i_base.md, spec/42_rv64i_rv128i.md).
-/
namespace Sys2Proof.Machine

/-- LUI (R260). -/
def execLui (rd : RegNum) (imm : BitVec 20) (s : State) : Host.Outcome State Fault Refusal :=
  finishX s 4 rd (upperValue imm)

/-- AUIPC (R261). -/
def execAuipc (rd : RegNum) (imm : BitVec 20) (s : State) : Host.Outcome State Fault Refusal :=
  finishX s 4 rd (s.pc + upperValue imm)

/-- ADDI (R251). -/
def execAddi (rd rs1 : RegNum) (imm : BitVec 12) (s : State) : Host.Outcome State Fault Refusal :=
  finishX s 4 rd (s.rx rs1 + immValue imm)

/-- SLTI (R252). -/
def execSlti (rd rs1 : RegNum) (imm : BitVec 12) (s : State) : Host.Outcome State Fault Refusal :=
  finishX s 4 rd (boolWord (ltS s.xlen (s.rx rs1) (immValue imm)))

/-- SLTIU (R253). -/
def execSltiu (rd rs1 : RegNum) (imm : BitVec 12) (s : State) : Host.Outcome State Fault Refusal :=
  finishX s 4 rd (boolWord ((s.rx rs1).ult (lowBits s.xlen (immValue imm))))

/-- XORI (R256). -/
def execXori (rd rs1 : RegNum) (imm : BitVec 12) (s : State) : Host.Outcome State Fault Refusal :=
  finishX s 4 rd (s.rx rs1 ^^^ immValue imm)

/-- ORI (R255). -/
def execOri (rd rs1 : RegNum) (imm : BitVec 12) (s : State) : Host.Outcome State Fault Refusal :=
  finishX s 4 rd (s.rx rs1 ||| immValue imm)

/-- ANDI (R254). -/
def execAndi (rd rs1 : RegNum) (imm : BitVec 12) (s : State) : Host.Outcome State Fault Refusal :=
  finishX s 4 rd (s.rx rs1 &&& immValue imm)

/-- SLLI (R257, R362). -/
def execSlli (rd rs1 : RegNum) (shamt : BitVec 6) (s : State) : Host.Outcome State Fault Refusal :=
  finishX s 4 rd (s.rx rs1 <<< shamt.toNat)

/-- SRLI (R258, R363). -/
def execSrli (rd rs1 : RegNum) (shamt : BitVec 6) (s : State) : Host.Outcome State Fault Refusal :=
  finishX s 4 rd (s.rx rs1 >>> shamt.toNat)

/-- SRAI (R259, R364). -/
def execSrai (rd rs1 : RegNum) (shamt : BitVec 6) (s : State) : Host.Outcome State Fault Refusal :=
  finishX s 4 rd (sraX s.xlen (s.rx rs1) shamt.toNat)

/-- ADD (R262). -/
def execAdd (rd rs1 rs2 : RegNum) (s : State) : Host.Outcome State Fault Refusal :=
  finishX s 4 rd (s.rx rs1 + s.rx rs2)

/-- SUB (R263). -/
def execSub (rd rs1 rs2 : RegNum) (s : State) : Host.Outcome State Fault Refusal :=
  finishX s 4 rd (s.rx rs1 - s.rx rs2)

/-- SLL (R269). -/
def execSll (rd rs1 rs2 : RegNum) (s : State) : Host.Outcome State Fault Refusal :=
  finishX s 4 rd (s.rx rs1 <<< shiftAmount s.xlen (s.rx rs2))

/-- SLT (R264). -/
def execSlt (rd rs1 rs2 : RegNum) (s : State) : Host.Outcome State Fault Refusal :=
  finishX s 4 rd (boolWord (ltS s.xlen (s.rx rs1) (s.rx rs2)))

/-- SLTU (R265). -/
def execSltu (rd rs1 rs2 : RegNum) (s : State) : Host.Outcome State Fault Refusal :=
  finishX s 4 rd (boolWord ((s.rx rs1).ult (s.rx rs2)))

/-- XOR (R268). -/
def execXor (rd rs1 rs2 : RegNum) (s : State) : Host.Outcome State Fault Refusal :=
  finishX s 4 rd (s.rx rs1 ^^^ s.rx rs2)

/-- SRL (R270). -/
def execSrl (rd rs1 rs2 : RegNum) (s : State) : Host.Outcome State Fault Refusal :=
  finishX s 4 rd (s.rx rs1 >>> shiftAmount s.xlen (s.rx rs2))

/-- SRA (R271). -/
def execSra (rd rs1 rs2 : RegNum) (s : State) : Host.Outcome State Fault Refusal :=
  finishX s 4 rd (sraX s.xlen (s.rx rs1) (shiftAmount s.xlen (s.rx rs2)))

/-- OR (R267). -/
def execOr (rd rs1 rs2 : RegNum) (s : State) : Host.Outcome State Fault Refusal :=
  finishX s 4 rd (s.rx rs1 ||| s.rx rs2)

/-- AND (R266). -/
def execAnd (rd rs1 rs2 : RegNum) (s : State) : Host.Outcome State Fault Refusal :=
  finishX s 4 rd (s.rx rs1 &&& s.rx rs2)

end Sys2Proof.Machine
end

