-- ==== Sys2Proof/Machine/LoadStore.lean ====
section
/-!
DEFINITION. Integer loads and stores (spec/40_rv32i_base.md R295 to R305, spec/42_rv64i_rv128i.md R376 to R378).
-/
namespace Sys2Proof.Machine

/-- LB (R297). -/
def execLb (rd rs1 : RegNum) (imm : BitVec 12) (s : State) : Host.Outcome State Fault Refusal :=
  loadSX s 4 1 rd (s.address rs1 (immValue imm))

/-- LH (R298). -/
def execLh (rd rs1 : RegNum) (imm : BitVec 12) (s : State) : Host.Outcome State Fault Refusal :=
  loadSX s 4 2 rd (s.address rs1 (immValue imm))

/-- LW (R299). -/
def execLw (rd rs1 : RegNum) (imm : BitVec 12) (s : State) : Host.Outcome State Fault Refusal :=
  loadSX s 4 4 rd (s.address rs1 (immValue imm))

/-- LBU (R300). -/
def execLbu (rd rs1 : RegNum) (imm : BitVec 12) (s : State) : Host.Outcome State Fault Refusal :=
  loadZX s 4 1 rd (s.address rs1 (immValue imm))

/-- LHU (R301). -/
def execLhu (rd rs1 : RegNum) (imm : BitVec 12) (s : State) : Host.Outcome State Fault Refusal :=
  loadZX s 4 2 rd (s.address rs1 (immValue imm))

/-- SB (R302). -/
def execSb (rs2 rs1 : RegNum) (imm : BitVec 12) (s : State) : Host.Outcome State Fault Refusal :=
  storeX s 4 1 rs2 (s.address rs1 (immValue imm))

/-- SH (R303). -/
def execSh (rs2 rs1 : RegNum) (imm : BitVec 12) (s : State) : Host.Outcome State Fault Refusal :=
  storeX s 4 2 rs2 (s.address rs1 (immValue imm))

/-- SW (R304). -/
def execSw (rs2 rs1 : RegNum) (imm : BitVec 12) (s : State) : Host.Outcome State Fault Refusal :=
  storeX s 4 4 rs2 (s.address rs1 (immValue imm))

/-- LWU (R377). -/
def execLwu (rd rs1 : RegNum) (imm : BitVec 12) (s : State) : Host.Outcome State Fault Refusal :=
  loadZX s 4 4 rd (s.address rs1 (immValue imm))

/-- LD (R376). -/
def execLd (rd rs1 : RegNum) (imm : BitVec 12) (s : State) : Host.Outcome State Fault Refusal :=
  loadSX s 4 8 rd (s.address rs1 (immValue imm))

/-- SD (R378). -/
def execSd (rs2 rs1 : RegNum) (imm : BitVec 12) (s : State) : Host.Outcome State Fault Refusal :=
  storeX s 4 8 rs2 (s.address rs1 (immValue imm))

end Sys2Proof.Machine
end

