-- ==== Sys2Proof/Machine/MulDiv.lean ====
section
/-!
DEFINITION. The M extension (spec/43_m_muldiv.md).
-/
namespace Sys2Proof.Machine

/-- The upper XLEN bits of an exact product (R402). -/
def highProduct (x : Xlen) (p : Int) : Word := BitVec.ofInt 64 (p / 2 ^ x.bits)

/-- Signed quotient rounded toward zero; by zero -1 (R405, R414). The overflow case gives 2 ^ (L - 1), whose low L bits are
the dividend's. -/
def quotS (a b : Int) : Int := if b = 0 then -1 else a.tdiv b

/-- Unsigned quotient; by zero all ones (R406, R414). -/
def quotU (a b : Nat) : Int := if b = 0 then -1 else ((a / b : Nat) : Int)

/-- Signed remainder with the sign of the dividend; by zero the dividend (R407, R414). -/
def remS (a b : Int) : Int := if b = 0 then a else a.tmod b

/-- Unsigned remainder; by zero the dividend (R408, R414). -/
def remU (a b : Nat) : Int := if b = 0 then (a : Int) else ((a % b : Nat) : Int)

/-- The low 32 bits as a number. -/
def low32 (v : Word) : Nat := v.toNat % 2 ^ 32

/-- MUL (R401). -/
def execMul (rd rs1 rs2 : RegNum) (s : State) : Host.Outcome State Fault Refusal :=
  finishX s 4 rd (s.rx rs1 * s.rx rs2)

/-- MULH (R402). -/
def execMulh (rd rs1 rs2 : RegNum) (s : State) : Host.Outcome State Fault Refusal :=
  finishX s 4 rd (highProduct s.xlen ((s.sx rs1).toInt * (s.sx rs2).toInt))

/-- MULHSU (R403). -/
def execMulhsu (rd rs1 rs2 : RegNum) (s : State) : Host.Outcome State Fault Refusal :=
  finishX s 4 rd (highProduct s.xlen ((s.sx rs1).toInt * ((s.rx rs2).toNat : Int)))

/-- MULHU (R404). -/
def execMulhu (rd rs1 rs2 : RegNum) (s : State) : Host.Outcome State Fault Refusal :=
  finishX s 4 rd (highProduct s.xlen (((s.rx rs1).toNat : Int) * ((s.rx rs2).toNat : Int)))

/-- DIV (R405). -/
def execDiv (rd rs1 rs2 : RegNum) (s : State) : Host.Outcome State Fault Refusal :=
  finishX s 4 rd (BitVec.ofInt 64 (quotS (s.sx rs1).toInt (s.sx rs2).toInt))

/-- DIVU (R406). -/
def execDivu (rd rs1 rs2 : RegNum) (s : State) : Host.Outcome State Fault Refusal :=
  finishX s 4 rd (BitVec.ofInt 64 (quotU (s.rx rs1).toNat (s.rx rs2).toNat))

/-- REM (R407). -/
def execRem (rd rs1 rs2 : RegNum) (s : State) : Host.Outcome State Fault Refusal :=
  finishX s 4 rd (BitVec.ofInt 64 (remS (s.sx rs1).toInt (s.sx rs2).toInt))

/-- REMU (R408). -/
def execRemu (rd rs1 rs2 : RegNum) (s : State) : Host.Outcome State Fault Refusal :=
  finishX s 4 rd (BitVec.ofInt 64 (remU (s.rx rs1).toNat (s.rx rs2).toNat))

/-- MULW (R409). -/
def execMulw (rd rs1 rs2 : RegNum) (s : State) : Host.Outcome State Fault Refusal :=
  finishX s 4 rd (sext32 (s.rx rs1 * s.rx rs2))

/-- DIVW (R410). -/
def execDivw (rd rs1 rs2 : RegNum) (s : State) : Host.Outcome State Fault Refusal :=
  finishX s 4 rd (sext32 (BitVec.ofInt 64 (quotS (sext32 (s.rx rs1)).toInt (sext32 (s.rx rs2)).toInt)))

/-- DIVUW (R411). -/
def execDivuw (rd rs1 rs2 : RegNum) (s : State) : Host.Outcome State Fault Refusal :=
  finishX s 4 rd (sext32 (BitVec.ofInt 64 (quotU (low32 (s.rx rs1)) (low32 (s.rx rs2)))))

/-- REMW (R412). -/
def execRemw (rd rs1 rs2 : RegNum) (s : State) : Host.Outcome State Fault Refusal :=
  finishX s 4 rd (sext32 (BitVec.ofInt 64 (remS (sext32 (s.rx rs1)).toInt (sext32 (s.rx rs2)).toInt)))

/-- REMUW (R413). -/
def execRemuw (rd rs1 rs2 : RegNum) (s : State) : Host.Outcome State Fault Refusal :=
  finishX s 4 rd (sext32 (BitVec.ofInt 64 (remU (low32 (s.rx rs1)) (low32 (s.rx rs2)))))

end Sys2Proof.Machine
end

