-- ==== Sys2Proof/Machine/Rv64.lean ====
section
/-!
DEFINITION. The RV64I word instructions (spec/42_rv64i_rv128i.md).
-/
namespace Sys2Proof.Machine

/-- ADDIW (R361). -/
def execAddiw (rd rs1 : RegNum) (imm : BitVec 12) (s : State) : Host.Outcome State Fault Refusal :=
  finishX s 4 rd (sext32 (s.rx rs1 + immValue imm))

/-- SLLIW (R365). -/
def execSlliw (rd rs1 : RegNum) (shamt : BitVec 5) (s : State) : Host.Outcome State Fault Refusal :=
  finishX s 4 rd (sllW (s.rx rs1) shamt.toNat)

/-- SRLIW (R366). -/
def execSrliw (rd rs1 : RegNum) (shamt : BitVec 5) (s : State) : Host.Outcome State Fault Refusal :=
  finishX s 4 rd (srlW (s.rx rs1) shamt.toNat)

/-- SRAIW (R367). -/
def execSraiw (rd rs1 : RegNum) (shamt : BitVec 5) (s : State) : Host.Outcome State Fault Refusal :=
  finishX s 4 rd (sraW (s.rx rs1) shamt.toNat)

/-- ADDW (R370). -/
def execAddw (rd rs1 rs2 : RegNum) (s : State) : Host.Outcome State Fault Refusal :=
  finishX s 4 rd (sext32 (s.rx rs1 + s.rx rs2))

/-- SUBW (R371). -/
def execSubw (rd rs1 rs2 : RegNum) (s : State) : Host.Outcome State Fault Refusal :=
  finishX s 4 rd (sext32 (s.rx rs1 - s.rx rs2))

/-- SLLW (R372). -/
def execSllw (rd rs1 rs2 : RegNum) (s : State) : Host.Outcome State Fault Refusal :=
  finishX s 4 rd (sllW (s.rx rs1) ((s.rx rs2).toNat % 32))

/-- SRLW (R373). -/
def execSrlw (rd rs1 rs2 : RegNum) (s : State) : Host.Outcome State Fault Refusal :=
  finishX s 4 rd (srlW (s.rx rs1) ((s.rx rs2).toNat % 32))

/-- SRAW (R374). -/
def execSraw (rd rs1 rs2 : RegNum) (s : State) : Host.Outcome State Fault Refusal :=
  finishX s 4 rd (sraW (s.rx rs1) ((s.rx rs2).toNat % 32))

end Sys2Proof.Machine
end

