-- ==== Sys2Proof/Machine/System.lean ====
section
/-!
DEFINITION. FENCE, FENCE.TSO, FENCE.I, ECALL and EBREAK (spec/41_rv32i_fence_system_hints_zifencei.md).
-/
namespace Sys2Proof.Machine

/-- FENCE.TSO (R323). On one hart it only advances the pc, as FENCE does. -/
def execFenceTso (_rs1 _rd : RegNum) (s : State) : Host.Outcome State Fault Refusal :=
  .next (s.retire 4)

/-- FENCE (R321). One hart sees its own accesses in program order (R115, R870), so the fence only advances the pc;
every fm and set runs so (R324). -/
def execFence (_fm _pred _succ : BitVec 4) (_rs1 _rd : RegNum) (s : State) : Host.Outcome State Fault Refusal :=
  .next (s.retire 4)

/-- ECALL (R330). It takes the environment-call exception (R814). -/
def execEcall (s : State) : Host.Outcome State Fault Refusal :=
  raise s .environmentCall

/-- EBREAK (R331). It takes the breakpoint exception (R813). -/
def execEbreak (s : State) : Host.Outcome State Fault Refusal :=
  raise s .breakpoint

/-- FENCE.I (R335). The fetch view is brought up to date (R71, R120); imm, rs1 and rd are ignored (R336). -/
def execFenceI (_rd _rs1 : RegNum) (_imm : BitVec 12) (s : State) : Host.Outcome State Fault Refusal :=
  .next (({ s with stale := [] } : State).retire 4)

end Sys2Proof.Machine
end

