-- ==== Sys2Proof/Machine/Fetch.lean ====
section
/-!
DEFINITION. Instruction fetch (R193) through the fetch view of memory (R120), what passes at the end of a step, and
placing an instruction where the next step fetches.
-/
namespace Sys2Proof.Machine

/-- The values an address held before its current one, since the last FENCE.I (R71). -/
def heldBytes (old : List Host.Cell) (a : Nat) : List Byte :=
  match old with
  | [] => []
  | (k, b) :: l => if k = a then b :: heldBytes l a else heldBytes l a

/-- The byte a fetch of an address sees (R120, D21): the current value or any value held since the last FENCE.I, freely
chosen; in a device's range the device's free answer. -/
def State.fetchByte (s : State) (a : Nat) : Byte :=
  if isIo s.cfg a then Config.deviceFetchByte s.draw s.io a
  else
    match heldBytes s.stale a with
    | [] => readByte s.mem a
    | old => (readByte s.mem a :: old).getD (Config.heldByteChoice s.draw a % (old.length + 1)) (readByte s.mem a)

/-- A parcel, two bytes wide, can be fetched from an address (R83, R100, R102). -/
def fetchable (c : Config) (a : Nat) : Bool :=
  match regionAt c a with
  | some r => r.kind != .vacant && r.fetch && r.widths.contains 2
  | none => false

/-- Fetch one 16-bit parcel, little-endian whatever the data byte order (R90, R193). -/
def State.fetchParcel (s : State) (a : Word) : Option (BitVec 16) :=
  if fetchable s.cfg (byteAddr s.xlen a 0) && fetchable s.cfg (byteAddr s.xlen a 1) then
    some (parcel (s.fetchByte (byteAddr s.xlen a 0)) (s.fetchByte (byteAddr s.xlen a 1)))
  else none

/-- `Fetch(pc)` (R193): the first parcel, then, unless it is a whole 16-bit instruction, the second. A parcel that cannot
be fetched raises the instruction access-fault with its address (R815). -/
def State.fetch (s : State) : Except Cause Code :=
  match s.fetchParcel s.pc with
  | none => .error (.instructionAccessFault s.pc)
  | some p0 =>
    if s.cfg.ext.c && p0.extractLsb' 0 2 != 3#2 then .ok (.half p0)
    else match s.fetchParcel (lowBits s.xlen (s.pc + 2)) with
      | none => .error (.instructionAccessFault (lowBits s.xlen (s.pc + 2)))
      | some p1 => .ok (.word (p1 ++ p0))

/-- A clock advanced: it never decreases (R501, D16, U53), so it stays at its greatest value instead of wrapping; in
practice it never gets there (R499, R501; log 10). -/
def clockAfter (v : BitVec 64) (advance : Nat) : BitVec 64 := BitVec.ofNat 64 (min (v.toNat + advance) (2 ^ 64 - 1))

/-- What passes with every step whatever it executed: `cycle`, `time` and the hpm counters advance by free amounts
(R499, R501, R502, U53), and the next draws are new ones (log 10). -/
def State.tick (s : State) : State :=
  { s with
    cycle := clockAfter s.cycle (Config.cycleAdvance s.draw)
    time := clockAfter s.time (Config.timeAdvance s.draw)
    hpm := Vector.ofFn fun i => s.hpm[i] + BitVec.ofNat 64 (Config.hpmAdvance s.draw i.val)
    draws := s.draws + 1 }

/-- The pc is a multiple of IALIGN/8 (R37). -/
def pcAligned (s : State) : Bool := alignedTo (ialignBytes s.cfg) s.pc

/-- Put a byte into memory from outside, before the run: the fetch view sees it (R862). -/
def State.placeByte (s : State) (a : Nat) (b : Byte) : State :=
  { s with mem := writeByte s.mem a b, stale := s.stale.filter fun c => c.1 != a }

/-- Put bytes at the addresses pc + i, pc + i + 1, and so on. -/
def State.placeBytes (s : State) (i : Nat) : List Byte → State
  | [] => s
  | b :: bs => (s.placeByte (byteAddr s.xlen s.pc i) b).placeBytes (i + 1) bs

end Sys2Proof.Machine
end

