-- ==== Sys2Proof/Machine/Step.lean ====
section
/-!
DEFINITION. One step: fetch, decode, execute, in that order of checks (R825), and the passing of time.
-/
namespace Sys2Proof.Machine

/-- Decode and execute what a fetch gave, or take the exception it raised. A code no row of the table has raises
illegal-instruction with its bits (R228, R812, D11). -/
def execFetched (s : State) (f : Except Cause Code) : Host.Outcome State Fault Refusal :=
  match f with
  | .error c => raise s c
  | .ok code =>
    match decode s.cfg code with
    | none => raise s (.illegalInstruction code)
    | some i => exec i s

/-- Fetch, decode and execute the instruction at the pc. -/
def fetchAndExec (s : State) : Host.Outcome State Fault Refusal := execFetched s s.fetch

/-- The end of a step. -/
def afterStep : Host.Outcome State Fault Refusal → Host.Outcome State Fault Refusal
  | .next t => .next t.tick
  | .fault r => .fault r
  | .refused r => .refused r

/-- One step of the machine. A terminated machine takes none (R827); a configuration the spec does not admit and a
misaligned pc are refused (U17, U18, U80). -/
def step (s : State) : Host.Outcome State Fault Refusal :=
  match s.status with
  | .terminated _ => .fault .terminated
  | .running =>
    if configLegal s.cfg = false then .refused .configuration
    else if pcAligned s = false then .refused .misalignedPc
    else afterStep (fetchAndExec s)

/-- The state with an instruction's bits stored where the next step fetches: four bytes from the pc on, the first parcel at
the lower address and each parcel little-endian (R90), the bits above `nbits` zero (log 14). -/
def State.withFetchWord (s : State) (nbits w : Nat) : State :=
  s.placeBytes 0 (Code.word (BitVec.ofNat 32 (w % 2 ^ nbits))).bytes

end Sys2Proof.Machine
end

