-- ==== Sys2Proof/Machine/Expansion.lean ====
section
/-!
DEFINITION. The base instruction each compressed instruction expands to (R722, the opcode table's `expands` key). The
meanings of Machine/Compressed.lean do not call it: it says what they must agree with, and gives the memory model the
registers of a compressed instruction (R159).
-/
namespace Sys2Proof.Machine

/-- A zero-extended offset field scaled by 2 ^ k, as a 12-bit immediate (R726). -/
def scaled12 {w : Nat} (k : Nat) (off : BitVec w) : BitVec 12 := BitVec.ofNat 12 (off.toNat * 2 ^ k)

/-- The expansion of a 16-bit instruction; none for a 32-bit instruction and for the four forms whose expansion has no
encoding (C.LQ, C.SQ, C.LQSP, C.SQSP; R386). -/
def expansion : Instr → Option Instr
  | .cAddi4spn rd imm => some (.addi (creg rd) 2 (0#2 ++ imm ++ 0#2))
  | .cFld rd rs1 off => some (.fld (creg rd) (creg rs1) (scaled12 3 off))
  | .cLw rd rs1 off => some (.lw (creg rd) (creg rs1) (scaled12 2 off))
  | .cFlw rd rs1 off => some (.flw (creg rd) (creg rs1) (scaled12 2 off))
  | .cLd rd rs1 off => some (.ld (creg rd) (creg rs1) (scaled12 3 off))
  | .cFsd rs2 rs1 off => some (.fsd (creg rs2) (creg rs1) (scaled12 3 off))
  | .cSw rs2 rs1 off => some (.sw (creg rs2) (creg rs1) (scaled12 2 off))
  | .cFsw rs2 rs1 off => some (.fsw (creg rs2) (creg rs1) (scaled12 2 off))
  | .cSd rs2 rs1 off => some (.sd (creg rs2) (creg rs1) (scaled12 3 off))
  | .cNop _ => some (.addi 0 0 0)
  | .cAddi rd imm => some (.addi rd rd (imm.signExtend 12))
  | .cJal off => some (.jal 1 (off.signExtend 20))
  | .cAddiw rd imm => some (.addiw rd rd (imm.signExtend 12))
  | .cLi rd imm => some (.addi rd 0 (imm.signExtend 12))
  | .cAddi16sp imm => some (.addi 2 2 ((imm ++ 0#4).signExtend 12))
  | .cLui rd imm => some (.lui rd (imm.signExtend 20))
  | .cSrli rd shamt => some (.srli (creg rd) (creg rd) shamt)
  | .cSrai rd shamt => some (.srai (creg rd) (creg rd) shamt)
  | .cAndi rd imm => some (.andi (creg rd) (creg rd) (imm.signExtend 12))
  | .cSub rd rs2 => some (.sub (creg rd) (creg rd) (creg rs2))
  | .cXor rd rs2 => some (.xor (creg rd) (creg rd) (creg rs2))
  | .cOr rd rs2 => some (.or (creg rd) (creg rd) (creg rs2))
  | .cAnd rd rs2 => some (.and (creg rd) (creg rd) (creg rs2))
  | .cSubw rd rs2 => some (.subw (creg rd) (creg rd) (creg rs2))
  | .cAddw rd rs2 => some (.addw (creg rd) (creg rd) (creg rs2))
  | .cJ off => some (.jal 0 (off.signExtend 20))
  | .cBeqz rs1 off => some (.beq (creg rs1) 0 (off.signExtend 12))
  | .cBnez rs1 off => some (.bne (creg rs1) 0 (off.signExtend 12))
  | .cSlli rd shamt => some (.slli rd rd shamt)
  | .cFldsp rd off => some (.fld rd 2 (scaled12 3 off))
  | .cLwsp rd off => some (.lw rd 2 (scaled12 2 off))
  | .cFlwsp rd off => some (.flw rd 2 (scaled12 2 off))
  | .cLdsp rd off => some (.ld rd 2 (scaled12 3 off))
  | .cJr rs1 => some (.jalr 0 rs1 0)
  | .cMv rd rs2 => some (.add rd 0 rs2)
  | .cEbreak => some (.ebreak)
  | .cJalr rs1 => some (.jalr 1 rs1 0)
  | .cAdd rd rs2 => some (.add rd rd rs2)
  | .cFsdsp rs2 off => some (.fsd rs2 2 (scaled12 3 off))
  | .cSwsp rs2 off => some (.sw rs2 2 (scaled12 2 off))
  | .cFswsp rs2 off => some (.fsw rs2 2 (scaled12 2 off))
  | .cSdsp rs2 off => some (.sd rs2 2 (scaled12 3 off))
  | .lui .. | .auipc .. | .jal .. | .jalr .. | .beq .. | .bne .. | .blt .. | .bge .. | .bltu .. | .bgeu .. | .lb ..
  | .lh .. | .lw .. | .lbu .. | .lhu .. | .sb .. | .sh .. | .sw .. | .addi .. | .slti .. | .sltiu .. | .xori ..
  | .ori .. | .andi .. | .slli .. | .srli .. | .srai .. | .add .. | .sub .. | .sll .. | .slt .. | .sltu .. | .xor ..
  | .srl .. | .sra .. | .or .. | .and .. | .fenceTso .. | .fence .. | .ecall | .ebreak | .lwu .. | .ld .. | .sd ..
  | .addiw .. | .slliw .. | .srliw .. | .sraiw .. | .addw .. | .subw .. | .sllw .. | .srlw .. | .sraw ..
  | .fenceI .. | .csrrw .. | .csrrs .. | .csrrc .. | .csrrwi .. | .csrrsi .. | .csrrci .. | .mul .. | .mulh ..
  | .mulhsu .. | .mulhu .. | .div .. | .divu .. | .rem .. | .remu .. | .mulw .. | .divw .. | .divuw .. | .remw ..
  | .remuw .. | .lrW .. | .scW .. | .amoswapW .. | .amoaddW .. | .amoxorW .. | .amoandW .. | .amoorW ..
  | .amominW .. | .amomaxW .. | .amominuW .. | .amomaxuW .. | .lrD .. | .scD .. | .amoswapD .. | .amoaddD ..
  | .amoxorD .. | .amoandD .. | .amoorD .. | .amominD .. | .amomaxD .. | .amominuD .. | .amomaxuD .. | .flw ..
  | .fsw .. | .fmaddS .. | .fmsubS .. | .fnmsubS .. | .fnmaddS .. | .faddS .. | .fsubS .. | .fmulS .. | .fdivS ..
  | .fsqrtS .. | .fsgnjS .. | .fsgnjnS .. | .fsgnjxS .. | .fminS .. | .fmaxS .. | .feqS .. | .fltS .. | .fleS ..
  | .fclassS .. | .fcvtWS .. | .fcvtWuS .. | .fcvtSW .. | .fcvtSWu .. | .fmvXW .. | .fmvWX .. | .fcvtLS ..
  | .fcvtLuS .. | .fcvtSL .. | .fcvtSLu .. | .fld .. | .fsd .. | .fmaddD .. | .fmsubD .. | .fnmsubD .. | .fnmaddD ..
  | .faddD .. | .fsubD .. | .fmulD .. | .fdivD .. | .fsqrtD .. | .fsgnjD .. | .fsgnjnD .. | .fsgnjxD .. | .fminD ..
  | .fmaxD .. | .fcvtSD .. | .fcvtDS .. | .feqD .. | .fltD .. | .fleD .. | .fclassD .. | .fcvtWD .. | .fcvtWuD ..
  | .fcvtDW .. | .fcvtDWu .. | .fcvtLD .. | .fcvtLuD .. | .fcvtDL .. | .fcvtDLu .. | .fmvXD .. | .fmvDX .. | .flq ..
  | .fsq .. | .fmaddQ .. | .fmsubQ .. | .fnmsubQ .. | .fnmaddQ .. | .faddQ .. | .fsubQ .. | .fmulQ .. | .fdivQ ..
  | .fsqrtQ .. | .fsgnjQ .. | .fsgnjnQ .. | .fsgnjxQ .. | .fminQ .. | .fmaxQ .. | .fcvtSQ .. | .fcvtQS ..
  | .fcvtDQ .. | .fcvtQD .. | .feqQ .. | .fltQ .. | .fleQ .. | .fclassQ .. | .fcvtWQ .. | .fcvtWuQ .. | .fcvtQW ..
  | .fcvtQWu .. | .fcvtLQ .. | .fcvtLuQ .. | .fcvtQL .. | .fcvtQLu .. | .cLq .. | .cSq .. | .cLqsp .. | .cSqsp .. => none

/-- The base form of an instruction: its expansion, or itself. -/
def baseForm (i : Instr) : Instr := (expansion i).getD i

end Sys2Proof.Machine
end

