-- ==== Sys2Proof/Machine/Effects.lean ====
section
/-!
DEFINITION. What an instruction does that more than its own hart can see: the explicit access it makes (R84, R102), the
CSR it reads or writes (R490), and the exception it raises in a state (R801). The meanings do not call these; the memory
model reads them, and a statement says that the meanings agree.
-/
namespace Sys2Proof.Machine

/-! ### Explicit accesses (R84, R102) -/

/-- The explicit access of an instruction: its kind, its width in bytes, and its base register and offset. -/
structure MemAccess where
  kind   : Access
  width  : Nat
  base   : RegNum
  offset : BitVec 12
  deriving DecidableEq, Repr

/-- The access of a base instruction (R84, R102). -/
def memAccessBase : Instr → Option MemAccess
  | .lb _ rs1 imm | .lbu _ rs1 imm => some ⟨.load, 1, rs1, imm⟩
  | .lh _ rs1 imm | .lhu _ rs1 imm => some ⟨.load, 2, rs1, imm⟩
  | .lw _ rs1 imm | .lwu _ rs1 imm | .flw _ rs1 imm => some ⟨.load, 4, rs1, imm⟩
  | .sb _ rs1 imm => some ⟨.store, 1, rs1, imm⟩
  | .sh _ rs1 imm => some ⟨.store, 2, rs1, imm⟩
  | .sw _ rs1 imm | .fsw _ rs1 imm => some ⟨.store, 4, rs1, imm⟩
  | .ld _ rs1 imm | .fld _ rs1 imm => some ⟨.load, 8, rs1, imm⟩
  | .sd _ rs1 imm | .fsd _ rs1 imm => some ⟨.store, 8, rs1, imm⟩
  | .lrW _ rs1 _ _ => some ⟨.lr, 4, rs1, 0⟩
  | .scW _ rs1 _ _ _ => some ⟨.sc, 4, rs1, 0⟩
  | .amoswapW _ rs1 _ _ _ => some ⟨.amo .swap, 4, rs1, 0⟩
  | .amoaddW _ rs1 _ _ _ => some ⟨.amo .add, 4, rs1, 0⟩
  | .amoxorW _ rs1 _ _ _ => some ⟨.amo .xor, 4, rs1, 0⟩
  | .amoandW _ rs1 _ _ _ => some ⟨.amo .and, 4, rs1, 0⟩
  | .amoorW _ rs1 _ _ _ => some ⟨.amo .or, 4, rs1, 0⟩
  | .amominW _ rs1 _ _ _ => some ⟨.amo .min, 4, rs1, 0⟩
  | .amomaxW _ rs1 _ _ _ => some ⟨.amo .max, 4, rs1, 0⟩
  | .amominuW _ rs1 _ _ _ => some ⟨.amo .minu, 4, rs1, 0⟩
  | .amomaxuW _ rs1 _ _ _ => some ⟨.amo .maxu, 4, rs1, 0⟩
  | .lrD _ rs1 _ _ => some ⟨.lr, 8, rs1, 0⟩
  | .scD _ rs1 _ _ _ => some ⟨.sc, 8, rs1, 0⟩
  | .amoswapD _ rs1 _ _ _ => some ⟨.amo .swap, 8, rs1, 0⟩
  | .amoaddD _ rs1 _ _ _ => some ⟨.amo .add, 8, rs1, 0⟩
  | .amoxorD _ rs1 _ _ _ => some ⟨.amo .xor, 8, rs1, 0⟩
  | .amoandD _ rs1 _ _ _ => some ⟨.amo .and, 8, rs1, 0⟩
  | .amoorD _ rs1 _ _ _ => some ⟨.amo .or, 8, rs1, 0⟩
  | .amominD _ rs1 _ _ _ => some ⟨.amo .min, 8, rs1, 0⟩
  | .amomaxD _ rs1 _ _ _ => some ⟨.amo .max, 8, rs1, 0⟩
  | .amominuD _ rs1 _ _ _ => some ⟨.amo .minu, 8, rs1, 0⟩
  | .amomaxuD _ rs1 _ _ _ => some ⟨.amo .maxu, 8, rs1, 0⟩
  | .flq _ rs1 imm => some ⟨.load, 16, rs1, imm⟩
  | .fsq _ rs1 imm => some ⟨.store, 16, rs1, imm⟩
  | .lui .. | .auipc .. | .jal .. | .jalr .. | .beq .. | .bne .. | .blt .. | .bge .. | .bltu .. | .bgeu .. | .addi ..
  | .slti .. | .sltiu .. | .xori .. | .ori .. | .andi .. | .slli .. | .srli .. | .srai .. | .add .. | .sub ..
  | .sll .. | .slt .. | .sltu .. | .xor .. | .srl .. | .sra .. | .or .. | .and .. | .fenceTso .. | .fence .. | .ecall
  | .ebreak | .addiw .. | .slliw .. | .srliw .. | .sraiw .. | .addw .. | .subw .. | .sllw .. | .srlw .. | .sraw ..
  | .fenceI .. | .csrrw .. | .csrrs .. | .csrrc .. | .csrrwi .. | .csrrsi .. | .csrrci .. | .mul .. | .mulh ..
  | .mulhsu .. | .mulhu .. | .div .. | .divu .. | .rem .. | .remu .. | .mulw .. | .divw .. | .divuw .. | .remw ..
  | .remuw .. | .fmaddS .. | .fmsubS .. | .fnmsubS .. | .fnmaddS .. | .faddS .. | .fsubS .. | .fmulS .. | .fdivS ..
  | .fsqrtS .. | .fsgnjS .. | .fsgnjnS .. | .fsgnjxS .. | .fminS .. | .fmaxS .. | .feqS .. | .fltS .. | .fleS ..
  | .fclassS .. | .fcvtWS .. | .fcvtWuS .. | .fcvtSW .. | .fcvtSWu .. | .fmvXW .. | .fmvWX .. | .fcvtLS ..
  | .fcvtLuS .. | .fcvtSL .. | .fcvtSLu .. | .fmaddD .. | .fmsubD .. | .fnmsubD .. | .fnmaddD .. | .faddD ..
  | .fsubD .. | .fmulD .. | .fdivD .. | .fsqrtD .. | .fsgnjD .. | .fsgnjnD .. | .fsgnjxD .. | .fminD .. | .fmaxD ..
  | .fcvtSD .. | .fcvtDS .. | .feqD .. | .fltD .. | .fleD .. | .fclassD .. | .fcvtWD .. | .fcvtWuD .. | .fcvtDW ..
  | .fcvtDWu .. | .fcvtLD .. | .fcvtLuD .. | .fcvtDL .. | .fcvtDLu .. | .fmvXD .. | .fmvDX .. | .fmaddQ ..
  | .fmsubQ .. | .fnmsubQ .. | .fnmaddQ .. | .faddQ .. | .fsubQ .. | .fmulQ .. | .fdivQ .. | .fsqrtQ .. | .fsgnjQ ..
  | .fsgnjnQ .. | .fsgnjxQ .. | .fminQ .. | .fmaxQ .. | .fcvtSQ .. | .fcvtQS .. | .fcvtDQ .. | .fcvtQD .. | .feqQ ..
  | .fltQ .. | .fleQ .. | .fclassQ .. | .fcvtWQ .. | .fcvtWuQ .. | .fcvtQW .. | .fcvtQWu .. | .fcvtLQ ..
  | .fcvtLuQ .. | .fcvtQL .. | .fcvtQLu .. | .cAddi4spn .. | .cFld .. | .cLq .. | .cLw .. | .cFlw .. | .cLd ..
  | .cFsd .. | .cSq .. | .cSw .. | .cFsw .. | .cSd .. | .cNop .. | .cAddi .. | .cJal .. | .cAddiw .. | .cLi ..
  | .cAddi16sp .. | .cLui .. | .cSrli .. | .cSrai .. | .cAndi .. | .cSub .. | .cXor .. | .cOr .. | .cAnd ..
  | .cSubw .. | .cAddw .. | .cJ .. | .cBeqz .. | .cBnez .. | .cSlli .. | .cFldsp .. | .cLqsp .. | .cLwsp ..
  | .cFlwsp .. | .cLdsp .. | .cJr .. | .cMv .. | .cEbreak | .cJalr .. | .cAdd .. | .cFsdsp .. | .cSqsp .. | .cSwsp ..
  | .cFswsp .. | .cSdsp .. => none

/-- The access of an instruction: a compressed one makes that of its expansion (R722). -/
def memAccess (i : Instr) : Option MemAccess := memAccessBase (baseForm i)

/-- The access reads memory. -/
def MemAccess.loads (m : MemAccess) : Bool :=
  match m.kind with
  | .load | .lr | .amo _ => true
  | .store | .sc => false

/-- The access writes memory; an SC's does where it succeeds. -/
def MemAccess.stores (m : MemAccess) : Bool :=
  match m.kind with
  | .store | .sc | .amo _ => true
  | .load | .lr => false

/-- The access is an AMO's. -/
def MemAccess.isAmo (m : MemAccess) : Bool :=
  match m.kind with
  | .amo _ => true
  | .load | .lr | .store | .sc => false

/-- The effective address in a state (R80, R295). -/
def MemAccess.addr (m : MemAccess) (s : State) : Word := s.address m.base (immValue m.offset)

/-! ### CSR accesses (R490) -/

/-- The CSR access of an instruction: the address, and whether it reads and whether it writes (Table R490-T). -/
structure CsrUse where
  csr    : BitVec 12
  reads  : Bool
  writes : Bool
  deriving DecidableEq, Repr

/-- Table R490-T. No compressed instruction accesses a CSR. -/
def csrUse : Instr → Option CsrUse
  | .csrrw rd csr _ | .csrrwi rd csr _ => some ⟨csr, rd != 0, true⟩
  | .csrrs _ csr rs1 | .csrrc _ csr rs1 => some ⟨csr, true, rs1 != 0⟩
  | .csrrsi _ csr uimm | .csrrci _ csr uimm => some ⟨csr, true, uimm != 0⟩
  | .lui .. | .auipc .. | .jal .. | .jalr .. | .beq .. | .bne .. | .blt .. | .bge .. | .bltu .. | .bgeu .. | .lb ..
  | .lh .. | .lw .. | .lbu .. | .lhu .. | .sb .. | .sh .. | .sw .. | .addi .. | .slti .. | .sltiu .. | .xori ..
  | .ori .. | .andi .. | .slli .. | .srli .. | .srai .. | .add .. | .sub .. | .sll .. | .slt .. | .sltu .. | .xor ..
  | .srl .. | .sra .. | .or .. | .and .. | .fenceTso .. | .fence .. | .ecall | .ebreak | .lwu .. | .ld .. | .sd ..
  | .addiw .. | .slliw .. | .srliw .. | .sraiw .. | .addw .. | .subw .. | .sllw .. | .srlw .. | .sraw .. | .fenceI ..
  | .mul .. | .mulh .. | .mulhsu .. | .mulhu .. | .div .. | .divu .. | .rem .. | .remu .. | .mulw .. | .divw ..
  | .divuw .. | .remw .. | .remuw .. | .lrW .. | .scW .. | .amoswapW .. | .amoaddW .. | .amoxorW .. | .amoandW ..
  | .amoorW .. | .amominW .. | .amomaxW .. | .amominuW .. | .amomaxuW .. | .lrD .. | .scD .. | .amoswapD ..
  | .amoaddD .. | .amoxorD .. | .amoandD .. | .amoorD .. | .amominD .. | .amomaxD .. | .amominuD .. | .amomaxuD ..
  | .flw .. | .fsw .. | .fmaddS .. | .fmsubS .. | .fnmsubS .. | .fnmaddS .. | .faddS .. | .fsubS .. | .fmulS ..
  | .fdivS .. | .fsqrtS .. | .fsgnjS .. | .fsgnjnS .. | .fsgnjxS .. | .fminS .. | .fmaxS .. | .feqS .. | .fltS ..
  | .fleS .. | .fclassS .. | .fcvtWS .. | .fcvtWuS .. | .fcvtSW .. | .fcvtSWu .. | .fmvXW .. | .fmvWX .. | .fcvtLS ..
  | .fcvtLuS .. | .fcvtSL .. | .fcvtSLu .. | .fld .. | .fsd .. | .fmaddD .. | .fmsubD .. | .fnmsubD .. | .fnmaddD ..
  | .faddD .. | .fsubD .. | .fmulD .. | .fdivD .. | .fsqrtD .. | .fsgnjD .. | .fsgnjnD .. | .fsgnjxD .. | .fminD ..
  | .fmaxD .. | .fcvtSD .. | .fcvtDS .. | .feqD .. | .fltD .. | .fleD .. | .fclassD .. | .fcvtWD .. | .fcvtWuD ..
  | .fcvtDW .. | .fcvtDWu .. | .fcvtLD .. | .fcvtLuD .. | .fcvtDL .. | .fcvtDLu .. | .fmvXD .. | .fmvDX .. | .flq ..
  | .fsq .. | .fmaddQ .. | .fmsubQ .. | .fnmsubQ .. | .fnmaddQ .. | .faddQ .. | .fsubQ .. | .fmulQ .. | .fdivQ ..
  | .fsqrtQ .. | .fsgnjQ .. | .fsgnjnQ .. | .fsgnjxQ .. | .fminQ .. | .fmaxQ .. | .fcvtSQ .. | .fcvtQS ..
  | .fcvtDQ .. | .fcvtQD .. | .feqQ .. | .fltQ .. | .fleQ .. | .fclassQ .. | .fcvtWQ .. | .fcvtWuQ .. | .fcvtQW ..
  | .fcvtQWu .. | .fcvtLQ .. | .fcvtLuQ .. | .fcvtQL .. | .fcvtQLu .. | .cAddi4spn .. | .cFld .. | .cLq .. | .cLw ..
  | .cFlw .. | .cLd .. | .cFsd .. | .cSq .. | .cSw .. | .cFsw .. | .cSd .. | .cNop .. | .cAddi .. | .cJal ..
  | .cAddiw .. | .cLi .. | .cAddi16sp .. | .cLui .. | .cSrli .. | .cSrai .. | .cAndi .. | .cSub .. | .cXor ..
  | .cOr .. | .cAnd .. | .cSubw .. | .cAddw .. | .cJ .. | .cBeqz .. | .cBnez .. | .cSlli .. | .cFldsp .. | .cLqsp ..
  | .cLwsp .. | .cFlwsp .. | .cLdsp .. | .cJr .. | .cMv .. | .cEbreak | .cJalr .. | .cAdd .. | .cFsdsp .. | .cSqsp ..
  | .cSwsp .. | .cFswsp .. | .cSdsp .. => none

/-- The instruction reads the `time` counter or its upper half (R496, R497). -/
def readsTime (i : Instr) : Bool := (csrUse i).any fun u => u.reads && (u.csr == 0xC01#12 || u.csr == 0xC81#12)

/-! ### The exception an instruction raises (R801, R811 to R819) -/

/-- The exception of a transfer of control to a target (R811). -/
def targetTrap (s : State) (target : Word) : Option Cause :=
  if !s.cfg.ext.c && !alignedTo 4 (lowBits s.xlen target) then
    some (.instructionAddressMisaligned (lowBits s.xlen target))
  else none

/-- The exception of a conditional branch: a taken one's (R285, R811). -/
def branchTrap (s : State) (taken : Bool) (imm : BitVec 12) : Option Cause :=
  if taken then targetTrap s (s.pc + branchOffset imm) else none

/-- The exception of a CSR access (R482, R491, R492). -/
def csrTrap (s : State) (i : Instr) (u : CsrUse) : Option Cause :=
  match csrAt s.cfg u.csr with
  | none => some (.illegalInstruction (encode i))
  | some c => if u.writes && c.readOnly then some (.illegalInstruction (encode i)) else none

/-- The exception of a rounding mode that stands for nothing (R531). -/
def rmTrap (s : State) (i : Instr) (rm : BitVec 3) : Option Cause :=
  if (effectiveRm s rm).isNone then some (.illegalInstruction (encode i)) else none

/-- The exception a base instruction without a memory access and without a CSR raises: its jump's or branch's, its
rounding mode's, or the one that is its effect. -/
def plainTrap (s : State) (i : Instr) : Instr → Option Cause
  | .jal _ imm => targetTrap s (s.pc + jumpOffset imm)
  | .jalr _ rs1 imm => targetTrap s (jalrTarget s rs1 (immValue imm))
  | .beq rs1 rs2 imm => branchTrap s (s.rx rs1 == s.rx rs2) imm
  | .bne rs1 rs2 imm => branchTrap s (s.rx rs1 != s.rx rs2) imm
  | .blt rs1 rs2 imm => branchTrap s (ltS s.xlen (s.rx rs1) (s.rx rs2)) imm
  | .bge rs1 rs2 imm => branchTrap s (!ltS s.xlen (s.rx rs1) (s.rx rs2)) imm
  | .bltu rs1 rs2 imm => branchTrap s ((s.rx rs1).ult (s.rx rs2)) imm
  | .bgeu rs1 rs2 imm => branchTrap s (!(s.rx rs1).ult (s.rx rs2)) imm
  | .ecall => some .environmentCall
  | .ebreak => some .breakpoint
  | .cLq .. | .cSq .. | .cLqsp .. | .cSqsp .. => some (.illegalInstruction (encode i))
  | .fmaddS _ _ _ _ rm | .fmsubS _ _ _ _ rm | .fnmsubS _ _ _ _ rm | .fnmaddS _ _ _ _ rm | .faddS _ _ _ rm
  | .fsubS _ _ _ rm | .fmulS _ _ _ rm | .fdivS _ _ _ rm | .fsqrtS _ _ rm | .fcvtWS _ _ rm | .fcvtWuS _ _ rm
  | .fcvtSW _ _ rm | .fcvtSWu _ _ rm | .fcvtLS _ _ rm | .fcvtLuS _ _ rm | .fcvtSL _ _ rm | .fcvtSLu _ _ rm
  | .fmaddD _ _ _ _ rm | .fmsubD _ _ _ _ rm | .fnmsubD _ _ _ _ rm | .fnmaddD _ _ _ _ rm | .faddD _ _ _ rm
  | .fsubD _ _ _ rm | .fmulD _ _ _ rm | .fdivD _ _ _ rm | .fsqrtD _ _ rm | .fcvtSD _ _ rm | .fcvtDS _ _ rm
  | .fcvtWD _ _ rm | .fcvtWuD _ _ rm | .fcvtDW _ _ rm | .fcvtDWu _ _ rm | .fcvtLD _ _ rm | .fcvtLuD _ _ rm
  | .fcvtDL _ _ rm | .fcvtDLu _ _ rm | .fmaddQ _ _ _ _ rm | .fmsubQ _ _ _ _ rm | .fnmsubQ _ _ _ _ rm
  | .fnmaddQ _ _ _ _ rm | .faddQ _ _ _ rm | .fsubQ _ _ _ rm | .fmulQ _ _ _ rm | .fdivQ _ _ _ rm | .fsqrtQ _ _ rm
  | .fcvtSQ _ _ rm | .fcvtQS _ _ rm | .fcvtDQ _ _ rm | .fcvtQD _ _ rm | .fcvtWQ _ _ rm | .fcvtWuQ _ _ rm
  | .fcvtQW _ _ rm | .fcvtQWu _ _ rm | .fcvtLQ _ _ rm | .fcvtLuQ _ _ rm | .fcvtQL _ _ rm | .fcvtQLu _ _ rm => rmTrap s i rm
  | .lui .. | .auipc .. | .lb .. | .lh .. | .lw .. | .lbu .. | .lhu .. | .sb .. | .sh .. | .sw .. | .addi ..
  | .slti .. | .sltiu .. | .xori .. | .ori .. | .andi .. | .slli .. | .srli .. | .srai .. | .add .. | .sub ..
  | .sll .. | .slt .. | .sltu .. | .xor .. | .srl .. | .sra .. | .or .. | .and .. | .fenceTso .. | .fence ..
  | .lwu .. | .ld .. | .sd .. | .addiw .. | .slliw .. | .srliw .. | .sraiw .. | .addw .. | .subw .. | .sllw ..
  | .srlw .. | .sraw .. | .fenceI .. | .csrrw .. | .csrrs .. | .csrrc .. | .csrrwi .. | .csrrsi .. | .csrrci ..
  | .mul .. | .mulh .. | .mulhsu .. | .mulhu .. | .div .. | .divu .. | .rem .. | .remu .. | .mulw .. | .divw ..
  | .divuw .. | .remw .. | .remuw .. | .lrW .. | .scW .. | .amoswapW .. | .amoaddW .. | .amoxorW .. | .amoandW ..
  | .amoorW .. | .amominW .. | .amomaxW .. | .amominuW .. | .amomaxuW .. | .lrD .. | .scD .. | .amoswapD ..
  | .amoaddD .. | .amoxorD .. | .amoandD .. | .amoorD .. | .amominD .. | .amomaxD .. | .amominuD .. | .amomaxuD ..
  | .flw .. | .fsw .. | .fsgnjS .. | .fsgnjnS .. | .fsgnjxS .. | .fminS .. | .fmaxS .. | .feqS .. | .fltS ..
  | .fleS .. | .fclassS .. | .fmvXW .. | .fmvWX .. | .fld .. | .fsd .. | .fsgnjD .. | .fsgnjnD .. | .fsgnjxD ..
  | .fminD .. | .fmaxD .. | .feqD .. | .fltD .. | .fleD .. | .fclassD .. | .fmvXD .. | .fmvDX .. | .flq .. | .fsq ..
  | .fsgnjQ .. | .fsgnjnQ .. | .fsgnjxQ .. | .fminQ .. | .fmaxQ .. | .feqQ .. | .fltQ .. | .fleQ .. | .fclassQ ..
  | .cAddi4spn .. | .cFld .. | .cLw .. | .cFlw .. | .cLd .. | .cFsd .. | .cSw .. | .cFsw .. | .cSd .. | .cNop ..
  | .cAddi .. | .cJal .. | .cAddiw .. | .cLi .. | .cAddi16sp .. | .cLui .. | .cSrli .. | .cSrai .. | .cAndi ..
  | .cSub .. | .cXor .. | .cOr .. | .cAnd .. | .cSubw .. | .cAddw .. | .cJ .. | .cBeqz .. | .cBnez .. | .cSlli ..
  | .cFldsp .. | .cLwsp .. | .cFlwsp .. | .cLdsp .. | .cJr .. | .cMv .. | .cEbreak | .cJalr .. | .cAdd ..
  | .cFsdsp .. | .cSwsp .. | .cFswsp .. | .cSdsp .. => none

/-- The exception an instruction raises in a state, if any (R801): the checks of its access (R100), of its CSR, or its own.
At most one (R825). -/
def trapOf (i : Instr) (s : State) : Option Cause :=
  match memAccess i with
  | some m => accessCheck s m.kind m.width (m.addr s)
  | none =>
    match csrUse i with
    | some u => csrTrap s i u
    | none => plainTrap s i (baseForm i)

/-- The exception a step raises, if any, given what it fetched: the fetch's, that of a code that is no instruction, or its
instruction's (R801, R825). -/
def trapOfFetched (s : State) (f : Except Cause Code) : Option Cause :=
  match f with
  | .error c => some c
  | .ok code =>
    match decode s.cfg code with
    | none => some (.illegalInstruction code)
    | some i => trapOf i s

end Sys2Proof.Machine
end

