-- ==== Sys2Proof/Safety.lean ====
section
/-!
DEFINITION. The terms claims are stated in: the invariant of the machine, what an instruction may leave unchanged, and a
safe step.
-/
namespace Sys2Proof.Machine

/-- The registers and the pc hold XLEN-bit values (R30, R35), the f registers FLEN-bit values (R50). -/
def State.WidthsOk (s : State) : Prop :=
  (∀ i : Fin 32, lowBits s.xlen s.x[i] = s.x[i]) ∧ lowBits s.xlen s.pc = s.pc ∧
    ∀ i : Fin 32, lowF s.flen s.f[i] = s.f[i]

/-- fcsr[31:8] is 0 (R43). -/
def State.FcsrOk (s : State) : Prop := s.fcsr.toNat < 256

/-- Every listed address is in the address space (R80). -/
def addressesBelow (bound : Nat) (l : List Host.Cell) : Bool := l.all fun c => c.1 < bound

/-- Memory is in canonical form and within the address space, and so is the fetch view. -/
def State.MemOk (s : State) : Prop :=
  Memory.wf s.mem = true ∧ addressesBelow (2 ^ s.xlen.bits) s.mem = true ∧
    addressesBelow (2 ^ s.xlen.bits) s.stale = true

/-- A reservation's set holds every byte its LR read (R438). -/
def State.ReservationOk (s : State) : Prop :=
  ∀ r, s.reservation = some r → ∀ i, i < r.lrSize → inSet r.bytes (r.lrAddr + i) = true

/-- The invariant of the machine: an admitted configuration (R4), registers of their widths, a pc aligned to IALIGN (R37),
reserved fcsr bits 0 (R43), canonical memory, and a reservation that subsumes the bytes its LR read (R438). -/
def State.Inv (s : State) : Prop :=
  configLegal s.cfg = true ∧ s.WidthsOk ∧ pcAligned s = true ∧ s.FcsrOk ∧ s.MemOk ∧ s.ReservationOk

/-! ### Numbers (the terms of the rules: x[r] as an unsigned or a signed number, modulo 2 ^ XLEN) -/

/-- x[r] as an unsigned number (R30). -/
def State.uval (s : State) (r : RegNum) : Int := ((s.rx r).toNat : Int)

/-- x[r] as a two's-complement number of XLEN bits. -/
def State.sval (s : State) (r : RegNum) : Int := ((s.rx r).toNat : Int).bmod (2 ^ s.xlen.bits)

/-- The low 32 bits of x[r] as an unsigned number. -/
def State.uval32 (s : State) (r : RegNum) : Int := (((s.rx r).toNat % 2 ^ 32 : Nat) : Int)

/-- The low 32 bits of x[r] as a two's-complement number. -/
def State.sval32 (s : State) (r : RegNum) : Int := ((s.rx r).toNat : Int).bmod (2 ^ 32)

/-- Byte i of the value of an n-byte access at `a`, i = 0 the least significant: in a little-endian memory the byte at the
i-th address, in a big-endian one that at the i-th from the end (R88). -/
def State.valueByteAddr (s : State) (n : Nat) (a : Word) (i : Nat) : Nat :=
  match s.cfg.endian with
  | .little => (a.toNat + i) % 2 ^ s.xlen.bits
  | .big => (a.toNat + (n - 1 - i)) % 2 ^ s.xlen.bits

/-- The number an n-byte read gives: the sum of its bytes by significance (R88). -/
def State.loadedValue (s : State) (n : Nat) (a : Word) : Nat :=
  ((List.range n).map fun i => (s.dataByte (s.valueByteAddr n a i)).toNat * 256 ^ i).sum

/-- An n-bit pattern as an FLEN-bit register holds it: ones above it (R53). -/
def boxed (flen n v : Nat) : Nat := if n < flen then v % 2 ^ n + (2 ^ flen - 2 ^ n) else v % 2 ^ flen

/-- The number a finite floating-point value denotes (R537). -/
def finiteValue (neg : Bool) (mant : Nat) (exp : Int) : ℚ := (if neg then -1 else 1) * (mant : ℚ) * (2 : ℚ) ^ exp

/-- A number some finite pattern of a format denotes. -/
def representable (t : Fmt) (v : ℚ) : Prop := ∃ b neg mant exp, decodeFp t b = .fin neg mant exp ∧ v = finiteValue neg mant exp

/-! ### Rounding (R535, R538: general knowledge by its own mark, log 21) -/

/-- The mode rounds a number away from zero. -/
def awayFromZero (m : Rm) (x : ℝ) : Prop := (m = .rdn ∧ x < 0) ∨ (m = .rup ∧ 0 < x)

/-- The mode rounds to a nearest number. -/
def toNearest (m : Rm) : Prop := m = .rne ∨ m = .rmm

/-- x overflows (R538 step 4): rounded with unbounded exponent it is beyond the largest finite number, which is one unit
2 ^ (emax - t) below 2 ^ (emax + 1). -/
def overflows (t : Fmt) (m : Rm) (x : ℝ) : Prop :=
  let top : ℝ := 2 ^ ((t.bias : Int) + 1)
  let unit : ℝ := 2 ^ ((t.bias : Int) - t.fracBits)
  (toNearest m → top - unit / 2 ≤ |x|) ∧ (awayFromZero m x → top - unit < |x|) ∧
    (¬ toNearest m → ¬ awayFromZero m x → top ≤ |x|)

/-- x is tiny after rounding (R535, R538 step 3): rounded with unbounded exponent it is below 2 ^ emin; a unit there is
2 ^ (emin - 1 - t). -/
def tiny (t : Fmt) (m : Rm) (x : ℝ) : Prop :=
  let low : ℝ := 2 ^ t.emin
  let unit : ℝ := 2 ^ (t.emin - 1 - t.fracBits)
  (toNearest m → |x| < low - unit / 2) ∧ (awayFromZero m x → |x| ≤ low - unit) ∧
    (¬ toNearest m → ¬ awayFromZero m x → |x| < low)

/-- y, denoted by a pattern, is the number of the format that the mode rounds x to: the neighbour it asks for among all
numbers of the format; of two nearest ones the one with an even pattern, or the greater in magnitude. -/
def nearest (t : Fmt) (m : Rm) (x y : ℝ) (bits : Nat) : Prop :=
  match m with
  | .rtz => |y| ≤ |x| ∧ ∀ v, representable t v → |(v : ℝ)| ≤ |x| → |(v : ℝ)| ≤ |y|
  | .rdn => y ≤ x ∧ ∀ v, representable t v → (v : ℝ) ≤ x → (v : ℝ) ≤ y
  | .rup => x ≤ y ∧ ∀ v, representable t v → x ≤ (v : ℝ) → y ≤ (v : ℝ)
  | .rne => ∀ v, representable t v → |x - y| ≤ |x - v| ∧ ((v : ℝ) ≠ y → |x - v| = |x - y| → bits % 2 = 0)
  | .rmm => ∀ v, representable t v → |x - y| ≤ |x - v| ∧ (|x - v| = |x - y| → |(v : ℝ)| ≤ |y|)

/-- r is the nonzero real x rounded once to a format, with the flags (R538): on overflow infinity or the largest finite number
with OF and NX, else the number the mode asks for, with NX where it is not x, and UF too where x is tiny. -/
def RoundsTo (t : Fmt) (m : Rm) (x : ℝ) (r : FpResult) : Prop :=
  (overflows t m x → ∃ neg : Bool, (neg = true ↔ x < 0) ∧ r.flags = flagOF ||| flagNX ∧
    (toNearest m ∨ awayFromZero m x → r.bits = withSign t neg t.infBits) ∧
    (¬ (toNearest m ∨ awayFromZero m x) → r.bits = withSign t neg (t.infBits - 1))) ∧
  (¬ overflows t m x → ∃ neg k e, decodeFp t r.bits = .fin neg k e ∧ r.bits < 2 ^ t.width ∧ (neg = true ↔ x < 0) ∧
    let y : ℝ := finiteValue neg k e
    nearest t m x y r.bits ∧ (y = x → r.flags = noFlags) ∧ (y ≠ x → tiny t m x → r.flags = flagUF ||| flagNX) ∧
      (y ≠ x → ¬ tiny t m x → r.flags = flagNX))

/-- An exact zero: the pattern of a zero of a sign, and no flag. -/
def ZeroResult (t : Fmt) (neg : Bool) (r : FpResult) : Prop := r.bits = withSign t neg 0 ∧ r.flags = noFlags

/-- An exact infinity. -/
def InfResult (t : Fmt) (neg : Bool) (r : FpResult) : Prop := r.bits = withSign t neg t.infBits ∧ r.flags = noFlags

/-- An invalid operation: the canonical NaN with NV (R532, R533). -/
def InvalidResult (t : Fmt) (r : FpResult) : Prop := r.bits = t.nanBits ∧ r.flags = flagNV

/-! ### Frames -/

/-- Every x register reads the same. -/
def SameX (s t : State) : Prop := ∀ r, t.rx r = s.rx r

/-- Every x register but one reads the same. -/
def SameXBut (rd : RegNum) (s t : State) : Prop := ∀ r, r ≠ rd → t.rx r = s.rx r

/-- Every f register holds the same. -/
def SameF (s t : State) : Prop := t.f = s.f

/-- Every f register but one holds the same. -/
def SameFBut (rd : RegNum) (s t : State) : Prop := ∀ r : RegNum, r ≠ rd → t.f[r.toNat]'r.isLt = s.f[r.toNat]'r.isLt

/-- Every byte of memory reads the same, now and by a fetch. -/
def SameBytes (s t : State) : Prop := (∀ a, readByte t.mem a = readByte s.mem a) ∧ t.stale = s.stale

/-- Every byte of memory reads the same, now and by a fetch, and no device was accessed. -/
def SameMem (s t : State) : Prop := SameBytes s t ∧ t.io = s.io

/-- The configuration, the free-running counters, the status, the draws and the hart are the same: what no instruction
changes by itself. -/
def SameRest (s t : State) : Prop :=
  t.cfg = s.cfg ∧ t.cycle = s.cycle ∧ t.time = s.time ∧ t.hpm = s.hpm ∧ t.status = s.status ∧ t.draws = s.draws ∧ t.hart = s.hart

/-- The access is recorded as a device's where it touches one, and nothing is recorded else (R104). -/
def NotesIo (s t : State) (k : IoKind) (n : Nat) (a : Word) (v : Nat) : Prop :=
  t.io = if (accessAddrs s.xlen a n).any (isIo s.cfg) then ⟨k, a.toNat, n, v⟩ :: s.io else s.io

/-- Bytes outside an access read the same, now and by a fetch. -/
def SameBytesOutside (s t : State) (n : Nat) (a : Word) : Prop :=
  ∀ c, (∀ i, i < n → c ≠ (a.toNat + i) % 2 ^ s.xlen.bits) →
    readByte t.mem c = readByte s.mem c ∧ heldBytes t.stale c = heldBytes s.stale c

/-- The bytes of an n-byte write of v at `a` are in memory and no others have changed: each byte of the value is at its
address, unless that is a device's, where memory stays as it was (R88, R104). -/
def StoredBytes (s t : State) (n : Nat) (a : Word) (v : Nat) : Prop :=
  (∀ i, i < n → readByte t.mem (s.valueByteAddr n a i) =
    if isIo s.cfg (s.valueByteAddr n a i) then readByte s.mem (s.valueByteAddr n a i)
    else BitVec.ofNat 8 (v / 256 ^ i)) ∧
    SameBytesOutside s t n a

/-- An n-byte write of v at `a` has happened and no other access. -/
def Stored (s t : State) (n : Nat) (a : Word) (v : Nat) : Prop := StoredBytes s t n a v ∧ NotesIo s t .write n a v

/-- The pc moves past the instruction, which is counted (R36, R500). -/
def Advances (s t : State) (len : Nat) : Prop :=
  t.pc.toNat = (s.pc.toNat + len) % 2 ^ s.xlen.bits ∧ t.instret = s.instret + 1

/-- The pc is at a target and the instruction is counted. -/
def JumpsTo (s t : State) (target : Nat) : Prop := t.pc.toNat = target ∧ t.instret = s.instret + 1

/-- x[rd] holds a number modulo 2 ^ XLEN; x0 reads 0 whatever is written (R31). -/
def HoldsX (s t : State) (rd : RegNum) (v : Int) : Prop :=
  ((t.rx rd).toNat : Int) = if rd = 0 then 0 else v % 2 ^ s.xlen.bits

/-- f[rd] holds an n-bit pattern, boxed. -/
def HoldsF (s t : State) (n : Nat) (rd : RegNum) (v : Nat) : Prop := (t.f[rd.toNat]'rd.isLt).toNat = boxed s.flen n v

/-- fcsr has gained flags and nothing else (R56). -/
def Accrues (s t : State) (flags : FpFlags) : Prop :=
  t.frm = s.frm ∧ t.fflags = s.fflags ||| flags ∧ t.fcsr.toNat < 256

/-- The state after an instruction of `len` bytes whose one effect is to write a number to x[rd]. -/
def XResult (s t : State) (len : Nat) (rd : RegNum) (v : Int) : Prop :=
  HoldsX s t rd v ∧ SameXBut rd s t ∧ SameF s t ∧ t.fcsr = s.fcsr ∧ t.reservation = s.reservation ∧ SameMem s t ∧
    Advances s t len ∧ SameRest s t

/-- The state after an instruction whose one effect is to write an n-bit pattern to f[rd]. -/
def FResult (s t : State) (n : Nat) (rd : RegNum) (v : Nat) : Prop :=
  HoldsF s t n rd v ∧ SameFBut rd s t ∧ SameX s t ∧ t.fcsr = s.fcsr ∧ t.reservation = s.reservation ∧ SameMem s t ∧
    Advances s t 4 ∧ SameRest s t

/-- The state after a floating-point instruction that writes a pattern to f[rd] and accrues flags. -/
def FArith (s t : State) (n : Nat) (rd : RegNum) (r : FpResult) : Prop :=
  HoldsF s t n rd r.bits ∧ SameFBut rd s t ∧ SameX s t ∧ Accrues s t r.flags ∧ t.reservation = s.reservation ∧
    SameMem s t ∧ Advances s t 4 ∧ SameRest s t

/-- The state after a floating-point instruction that writes a number to x[rd] and accrues flags. -/
def FToX (s t : State) (rd : RegNum) (v : Int) (flags : FpFlags) : Prop :=
  HoldsX s t rd v ∧ SameXBut rd s t ∧ SameF s t ∧ Accrues s t flags ∧ t.reservation = s.reservation ∧ SameMem s t ∧
    Advances s t 4 ∧ SameRest s t

/-- The state after a load of x[rd]. -/
def XLoad (s t : State) (len n : Nat) (rd : RegNum) (a : Word) (v : Int) : Prop :=
  HoldsX s t rd v ∧ SameXBut rd s t ∧ SameF s t ∧ t.fcsr = s.fcsr ∧ t.reservation = s.reservation ∧ SameBytes s t ∧
    NotesIo s t .read n a (s.loadedValue n a) ∧ Advances s t len ∧ SameRest s t

/-- The state after a load of f[rd]. -/
def FLoad (s t : State) (len n : Nat) (rd : RegNum) (a : Word) : Prop :=
  HoldsF s t (8 * n) rd (s.loadedValue n a) ∧ SameFBut rd s t ∧ SameX s t ∧ t.fcsr = s.fcsr ∧
    t.reservation = s.reservation ∧ SameBytes s t ∧ NotesIo s t .read n a (s.loadedValue n a) ∧ Advances s t len ∧
    SameRest s t

/-- The state after a store of n bytes of v. -/
def StoreDone (s t : State) (len n : Nat) (a : Word) (v : Nat) : Prop :=
  Stored s t n a v ∧ SameX s t ∧ SameF s t ∧ t.fcsr = s.fcsr ∧ t.reservation = s.reservation ∧ Advances s t len ∧
    SameRest s t

/-- The state after an LR of n bytes at `a` (R434): a sign-extended load, and a reservation in place of any other. -/
def LrDone (s t : State) (n : Nat) (rd : RegNum) (a : Word) : Prop :=
  HoldsX s t rd ((s.loadedValue n a : Int).bmod (256 ^ n)) ∧ SameXBut rd s t ∧ SameF s t ∧ t.fcsr = s.fcsr ∧
    (∃ r, t.reservation = some r ∧ r.lrAddr = a.toNat ∧ r.lrSize = n ∧
      ∀ i, i < n → inSet r.bytes (a.toNat + i) = true) ∧
    SameBytes s t ∧ NotesIo s t .read n a (s.loadedValue n a) ∧ Advances s t 4 ∧ SameRest s t

/-- The state after an SC of n bytes at `a` (R436): success stores and writes 0, failure stores nothing and writes 1; the
reservation is gone either way. -/
def ScDone (s t : State) (n : Nat) (rd rs2 : RegNum) (a : Word) : Prop :=
  (if scSucceeds s n a then HoldsX s t rd 0 ∧ Stored s t n a ((s.rx rs2).toNat % 256 ^ n)
    else HoldsX s t rd 1 ∧ SameMem s t) ∧
    t.reservation = none ∧ SameXBut rd s t ∧ SameF s t ∧ t.fcsr = s.fcsr ∧ Advances s t 4 ∧ SameRest s t

/-- The state after an AMO of n bytes at `a` that stores `new` (R455): rd has the old value, sign-extended; where the bytes
are a device's, a read and then a write are recorded. -/
def AmoDone (s t : State) (n : Nat) (rd : RegNum) (a : Word) (new : Nat) : Prop :=
  HoldsX s t rd ((s.loadedValue n a : Int).bmod (256 ^ n)) ∧ SameXBut rd s t ∧ SameF s t ∧ t.fcsr = s.fcsr ∧
    t.reservation = s.reservation ∧ StoredBytes s t n a new ∧
    (t.io = if (accessAddrs s.xlen a n).any (isIo s.cfg) then
        ⟨.write, a.toNat, n, new⟩ :: ⟨.read, a.toNat, n, s.loadedValue n a⟩ :: s.io else s.io) ∧
    Advances s t 4 ∧ SameRest s t

/-- The value a CSR reads as (R42 to R47, R502). -/
def State.csrNumber (s : State) : Csr → Nat
  | .fflags => s.fflags.toNat
  | .frm => s.frm.toNat
  | .fcsr => s.frm.toNat * 32 + s.fflags.toNat
  | .counter i => (s.counter i).toNat % 2 ^ s.xlen.bits
  | .counterH i => (s.counter i).toNat / 2 ^ 32

/-- fcsr after a CSR write of v (R43, R44): fflags keeps v[4:0], frm v[2:0], fcsr v[7:0]. -/
def State.fcsrWritten (s : State) (v : Nat) : Csr → Nat
  | .fflags => s.frm.toNat * 32 + v % 32
  | .frm => v % 8 * 32 + s.fflags.toNat
  | .fcsr => v % 256
  | .counter _ | .counterH _ => s.fcsr.toNat

/-- The state after a CSR instruction that completes (R482): rd has the old value if the instruction reads, and the CSR the
new one if it writes. -/
def CsrDone (s t : State) (rd : RegNum) (c : Csr) (write : Option Nat) : Prop :=
  HoldsX s t rd (s.csrNumber c) ∧ SameXBut rd s t ∧ SameF s t ∧
    (t.fcsr.toNat = match write with
      | some v => s.fcsrWritten v c
      | none => s.fcsr.toNat) ∧
    t.reservation = s.reservation ∧ SameMem s t ∧ Advances s t 4 ∧ SameRest s t

/-- The state after a jump that links: rd holds the address after the instruction (R280, R282). -/
def Linked (s t : State) (len : Nat) (rd : RegNum) (target : Nat) : Prop :=
  HoldsX s t rd (s.pc.toNat + len) ∧ SameXBut rd s t ∧ SameF s t ∧ t.fcsr = s.fcsr ∧ t.reservation = s.reservation ∧
    SameMem s t ∧ JumpsTo s t target ∧ SameRest s t

/-- Nothing but the pc and instret has changed. -/
def OnlyPc (s t : State) : Prop :=
  SameX s t ∧ SameF s t ∧ t.fcsr = s.fcsr ∧ t.reservation = s.reservation ∧ SameMem s t ∧ SameRest s t

/-! ### What an instruction answers -/

/-- The instruction completes in a state, with a next state that has a property. -/
def Completes (i : Instr) (s : State) (p : State → Prop) : Prop := ∃ t, exec i s = .next t ∧ p t

/-- The instruction takes an exception. -/
def TakesTrap (i : Instr) (s : State) (c : Cause) : Prop := exec i s = .next (s.takeTrap c)

/-- The address an offset from a number gives, modulo 2 ^ XLEN (R80). -/
def State.target (s : State) (v : Int) : Nat := (v % 2 ^ s.xlen.bits).toNat

/-- A target is aligned to IALIGN: four bytes without C; an even one always is with C (R811). -/
def targetAligned (s : State) (target : Nat) : Prop := s.cfg.ext.c = true ∨ target % 4 = 0

/-- What a conditional branch answers (R285): where the condition fails only the pc advances; where it holds the pc is the
target, or, if that is misaligned, the instruction traps. -/
def BranchAnswer (i : Instr) (s : State) (len : Nat) (cond : Prop) (target : Nat) : Prop :=
  (¬ cond → Completes i s fun t => OnlyPc s t ∧ Advances s t len) ∧
    (cond → targetAligned s target → Completes i s fun t => OnlyPc s t ∧ JumpsTo s t target) ∧
    (cond → ¬ targetAligned s target → TakesTrap i s (.instructionAddressMisaligned (BitVec.ofNat 64 target)))

/-- What a jump answers (R280, R282): it links and jumps, or, if the target is misaligned, traps. -/
def JumpAnswer (i : Instr) (s : State) (len : Nat) (rd : RegNum) (target : Nat) : Prop :=
  (targetAligned s target → Completes i s fun t => Linked s t len rd target) ∧
    (¬ targetAligned s target → TakesTrap i s (.instructionAddressMisaligned (BitVec.ofNat 64 target)))

/-- Table 11.1 (R45): what a number stands for as a rounding mode. -/
def table111 : Nat → Option Rm
  | 0 => some .rne
  | 1 => some .rtz
  | 2 => some .rdn
  | 3 => some .rup
  | 4 => some .rmm
  | _ => none

/-- What an instruction with a rounding mode answers (R531): with a mode of Table 11.1, its own or, where its field is 111,
that in fcsr[7:5], it completes; else it is illegal. -/
def RoundedAnswer (i : Instr) (s : State) (rm : BitVec 3) (done : Rm → State → Prop) : Prop :=
  let mode := table111 (if rm = 7 then s.fcsr.toNat / 32 % 8 else rm.toNat)
  (∀ m, mode = some m → Completes i s (done m)) ∧ (mode = none → TakesTrap i s (.illegalInstruction (encode i)))

/-- What an instruction that makes one checked access answers (R100): the first check that fails is taken as an exception;
if none fails it completes. -/
def AccessAnswer (i : Instr) (s : State) (k : Access) (n : Nat) (a : Word) (done : State → Prop) : Prop :=
  (accessCheck s k n a = none → Completes i s done) ∧ ∀ c, accessCheck s k n a = some c → TakesTrap i s c

/-- What a CSR instruction answers (R482, R491, R492): `write` gives, from the old value, what it writes, if it writes.
A CSR that does not exist, and a write to a read-only one, are illegal. -/
def CsrAnswer (i : Instr) (s : State) (rd : RegNum) (csr : BitVec 12) (write : Nat → Option Nat) : Prop :=
  (csrAt s.cfg csr = none → TakesTrap i s (.illegalInstruction (encode i))) ∧
    ∀ c, csrAt s.cfg csr = some c →
      ((c.readOnly = true ∧ (write (s.csrNumber c)).isSome → TakesTrap i s (.illegalInstruction (encode i))) ∧
        (¬ (c.readOnly = true ∧ (write (s.csrNumber c)).isSome) →
          Completes i s fun t => CsrDone s t rd c (write (s.csrNumber c))))

/-- A run of `k` steps answers a state. -/
def reaches (s : State) : Nat → State → Prop
  | 0, t => t = s
  | k + 1, t => ∃ u, step s = .next u ∧ reaches u k t

/-- A step from the state answers a next state. -/
def CanStep (s : State) : Prop := ∃ t, step s = .next t

end Sys2Proof.Machine
end

