-- ==== Sys2Proof/Machine/MemoryModel.lean ====
section
/-!
DEFINITION. The RVWMO memory consistency model, with Ztso and Zam, as a check on candidate executions of several harts
(spec/21_memory_model.md). No step of the one-hart machine reads it (log 1): on one hart its axioms give sequential
execution (R131, R150). A candidate execution is finite, so the progress axiom holds of it (R152). `outcome` ties candidates
to harts that run the machine of Step.lean (R132, R835, R861).

A candidate is what each hart executes and one list of all memory operations in global memory order (R132). Which store
a load byte reads from is not a choice of the candidate: the load value axiom determines it (R150).
-/
namespace Sys2Proof.Machine

/-! ### Registers and dependencies of an instruction (R137, R138, R154 to R159) -/

/-- A register for dependency purposes (R137): x1 to x31, the f registers, and the units fcsr is tracked in (R154). -/
inductive DepReg
  | x (r : RegNum)
  | f (r : RegNum)
  | frm
  /-- fflags bit i: NV 4, DZ 3, OF 2, UF 1, NX 0 -/
  | flag (i : Fin 5)
  deriving DecidableEq, Repr

/-- Which sources carry a dependency to which destinations (R155). -/
inductive Carry
  | all
  | nothing
  | only (l : List (DepReg × DepReg))
  deriving DecidableEq, Repr

/-- One row of the listings (R155): address sources, data sources, other sources, destinations, accumulating CSRs. -/
structure Deps where
  addr  : List DepReg
  data  : List DepReg
  other : List DepReg
  dst   : List DepReg
  acc   : List DepReg
  carry : Carry
  deriving DecidableEq, Repr

/-- x0 is never a source or a destination (R137). -/
def depX (r : RegNum) : List DepReg := if r = 0 then [] else [.x r]

/-- frm is a source where the rounding mode is dynamic (R155). -/
def depFrm (rm : BitVec 3) : List DepReg := if rm = 0b111#3 then [.frm] else []

/-- NV. -/
def depNV : List DepReg := [.flag 4]
/-- NX. -/
def depNX : List DepReg := [.flag 0]
/-- NV and NX. -/
def depNVNX : List DepReg := [.flag 4, .flag 0]
/-- NV, OF, UF and NX. -/
def depArith : List DepReg := [.flag 4, .flag 2, .flag 1, .flag 0]
/-- All five flags. -/
def depFlags : List DepReg := [.flag 4, .flag 3, .flag 2, .flag 1, .flag 0]

/-- The units a CSR address stands for (R154): read-only CSRs take no part. -/
def depCsr (a : BitVec 12) : List DepReg :=
  if a = 0x001#12 then depFlags else if a = 0x002#12 then [.frm] else if a = 0x003#12 then .frm :: depFlags else []

/-- No registers. -/
def depsNone : Deps := ⟨[], [], [], [], [], .all⟩

/-- An instruction that computes its destinations from its sources. -/
def depsCompute (src dst acc : List DepReg) : Deps := ⟨[], [], src, dst, acc, .all⟩

/-- A load or LR (R156, R157). -/
def depsLoad (addr dst : List DepReg) : Deps := ⟨addr, [], [], dst, [], .nothing⟩

/-- A store (R156). -/
def depsStore (addr data : List DepReg) : Deps := ⟨addr, data, [], [], [], .all⟩

/-- An AMO or SC (R157). -/
def depsAtomic (addr data dst : List DepReg) : Deps := ⟨addr, data, [], dst, [], .nothing⟩

/-- A CSR instruction (R156): `src` to the CSR and the CSR to rd. -/
def depsCsr (rd : RegNum) (csr : BitVec 12) (src : List DepReg) (reads writes : Bool) : Deps :=
  { addr := []
    data := []
    other := src ++ (if reads then depCsr csr else [])
    dst := depX rd ++ (if writes then depCsr csr else [])
    acc := []
    carry := .only ((src.product (depCsr csr)) ++ ((depCsr csr).product (depX rd))) }

/-- The row of a base instruction (R156 to R159); `ok` says that an SC succeeded. -/
def depsBase (ok : Bool) : Instr → Deps
  | .lui rd _ | .auipc rd _ | .jal rd _ => depsCompute [] (depX rd) []
  | .jalr rd rs1 _ => ⟨[], [], depX rs1, depX rd, [], .nothing⟩
  | .beq rs1 rs2 _ | .bne rs1 rs2 _ | .blt rs1 rs2 _ | .bge rs1 rs2 _ | .bltu rs1 rs2 _ | .bgeu rs1 rs2 _ => depsCompute (depX rs1 ++ depX rs2) [] []
  | .lb rd rs1 _ | .lh rd rs1 _ | .lw rd rs1 _ | .lbu rd rs1 _ | .lhu rd rs1 _ | .lwu rd rs1 _ | .ld rd rs1 _
  | .lrW rd rs1 _ _ | .lrD rd rs1 _ _ => depsLoad (depX rs1) (depX rd)
  | .sb rs2 rs1 _ | .sh rs2 rs1 _ | .sw rs2 rs1 _ | .sd rs2 rs1 _ => depsStore (depX rs1) (depX rs2)
  | .addi rd rs1 _ | .slti rd rs1 _ | .sltiu rd rs1 _ | .xori rd rs1 _ | .ori rd rs1 _ | .andi rd rs1 _
  | .slli rd rs1 _ | .srli rd rs1 _ | .srai rd rs1 _ | .addiw rd rs1 _ | .slliw rd rs1 _ | .srliw rd rs1 _
  | .sraiw rd rs1 _ => depsCompute (depX rs1) (depX rd) []
  | .add rd rs1 rs2 | .sub rd rs1 rs2 | .sll rd rs1 rs2 | .slt rd rs1 rs2 | .sltu rd rs1 rs2 | .xor rd rs1 rs2
  | .srl rd rs1 rs2 | .sra rd rs1 rs2 | .or rd rs1 rs2 | .and rd rs1 rs2 | .addw rd rs1 rs2 | .subw rd rs1 rs2
  | .sllw rd rs1 rs2 | .srlw rd rs1 rs2 | .sraw rd rs1 rs2 | .mul rd rs1 rs2 | .mulh rd rs1 rs2 | .mulhsu rd rs1 rs2
  | .mulhu rd rs1 rs2 | .div rd rs1 rs2 | .divu rd rs1 rs2 | .rem rd rs1 rs2 | .remu rd rs1 rs2 | .mulw rd rs1 rs2
  | .divw rd rs1 rs2 | .divuw rd rs1 rs2 | .remw rd rs1 rs2 | .remuw rd rs1 rs2 => depsCompute (depX rs1 ++ depX rs2) (depX rd) []
  | .fenceTso _ _ | .fence _ _ _ _ _ | .ecall | .ebreak | .fenceI _ _ _ => depsNone
  | .csrrw rd csr rs1 => depsCsr rd csr (depX rs1) (rd != 0) true
  | .csrrs rd csr rs1 | .csrrc rd csr rs1 => depsCsr rd csr (depX rs1) true (rs1 != 0)
  | .csrrwi rd csr _ => depsCsr rd csr [] (rd != 0) true
  | .csrrsi rd csr uimm | .csrrci rd csr uimm => depsCsr rd csr [] true (uimm != 0)
  | .scW rd rs1 rs2 _ _ | .scD rd rs1 rs2 _ _ => depsAtomic (depX rs1) (depX rs2) (if ok then depX rd else [])
  | .amoswapW rd rs1 rs2 _ _ | .amoaddW rd rs1 rs2 _ _ | .amoxorW rd rs1 rs2 _ _ | .amoandW rd rs1 rs2 _ _
  | .amoorW rd rs1 rs2 _ _ | .amominW rd rs1 rs2 _ _ | .amomaxW rd rs1 rs2 _ _ | .amominuW rd rs1 rs2 _ _
  | .amomaxuW rd rs1 rs2 _ _ | .amoswapD rd rs1 rs2 _ _ | .amoaddD rd rs1 rs2 _ _ | .amoxorD rd rs1 rs2 _ _
  | .amoandD rd rs1 rs2 _ _ | .amoorD rd rs1 rs2 _ _ | .amominD rd rs1 rs2 _ _ | .amomaxD rd rs1 rs2 _ _
  | .amominuD rd rs1 rs2 _ _ | .amomaxuD rd rs1 rs2 _ _ => depsAtomic (depX rs1) (depX rs2) (depX rd)
  | .flw rd rs1 _ | .fld rd rs1 _ | .flq rd rs1 _ => depsLoad (depX rs1) [.f rd]
  | .fsw rs2 rs1 _ | .fsd rs2 rs1 _ | .fsq rs2 rs1 _ => depsStore (depX rs1) [.f rs2]
  | .fmaddS rd rs1 rs2 rs3 rm | .fmsubS rd rs1 rs2 rs3 rm | .fnmsubS rd rs1 rs2 rs3 rm | .fnmaddS rd rs1 rs2 rs3 rm
  | .fmaddD rd rs1 rs2 rs3 rm | .fmsubD rd rs1 rs2 rs3 rm | .fnmsubD rd rs1 rs2 rs3 rm | .fnmaddD rd rs1 rs2 rs3 rm
  | .fmaddQ rd rs1 rs2 rs3 rm | .fmsubQ rd rs1 rs2 rs3 rm | .fnmsubQ rd rs1 rs2 rs3 rm | .fnmaddQ rd rs1 rs2 rs3 rm => depsCompute ([.f rs1] ++ [.f rs2] ++ [.f rs3] ++ depFrm rm) [.f rd] depArith
  | .faddS rd rs1 rs2 rm | .fsubS rd rs1 rs2 rm | .fmulS rd rs1 rs2 rm | .faddD rd rs1 rs2 rm | .fsubD rd rs1 rs2 rm
  | .fmulD rd rs1 rs2 rm | .faddQ rd rs1 rs2 rm | .fsubQ rd rs1 rs2 rm | .fmulQ rd rs1 rs2 rm => depsCompute ([.f rs1] ++ [.f rs2] ++ depFrm rm) [.f rd] depArith
  | .fdivS rd rs1 rs2 rm | .fdivD rd rs1 rs2 rm | .fdivQ rd rs1 rs2 rm => depsCompute ([.f rs1] ++ [.f rs2] ++ depFrm rm) [.f rd] depFlags
  | .fsqrtS rd rs1 rm | .fsqrtD rd rs1 rm | .fsqrtQ rd rs1 rm => depsCompute ([.f rs1] ++ depFrm rm) [.f rd] depNVNX
  | .fsgnjS rd rs1 rs2 | .fsgnjnS rd rs1 rs2 | .fsgnjxS rd rs1 rs2 | .fsgnjD rd rs1 rs2 | .fsgnjnD rd rs1 rs2
  | .fsgnjxD rd rs1 rs2 | .fsgnjQ rd rs1 rs2 | .fsgnjnQ rd rs1 rs2 | .fsgnjxQ rd rs1 rs2 => depsCompute ([.f rs1] ++ [.f rs2]) [.f rd] []
  | .fminS rd rs1 rs2 | .fmaxS rd rs1 rs2 | .fminD rd rs1 rs2 | .fmaxD rd rs1 rs2 | .fminQ rd rs1 rs2
  | .fmaxQ rd rs1 rs2 => depsCompute ([.f rs1] ++ [.f rs2]) [.f rd] depNV
  | .feqS rd rs1 rs2 | .fltS rd rs1 rs2 | .fleS rd rs1 rs2 | .feqD rd rs1 rs2 | .fltD rd rs1 rs2 | .fleD rd rs1 rs2
  | .feqQ rd rs1 rs2 | .fltQ rd rs1 rs2 | .fleQ rd rs1 rs2 => depsCompute ([.f rs1] ++ [.f rs2]) (depX rd) depNV
  | .fclassS rd rs1 | .fmvXW rd rs1 | .fclassD rd rs1 | .fmvXD rd rs1 | .fclassQ rd rs1 => depsCompute [.f rs1] (depX rd) []
  | .fcvtWS rd rs1 rm | .fcvtWuS rd rs1 rm | .fcvtLS rd rs1 rm | .fcvtLuS rd rs1 rm | .fcvtWD rd rs1 rm
  | .fcvtWuD rd rs1 rm | .fcvtLD rd rs1 rm | .fcvtLuD rd rs1 rm | .fcvtWQ rd rs1 rm | .fcvtWuQ rd rs1 rm
  | .fcvtLQ rd rs1 rm | .fcvtLuQ rd rs1 rm => depsCompute ([.f rs1] ++ depFrm rm) (depX rd) depNVNX
  | .fcvtSW rd rs1 rm | .fcvtSWu rd rs1 rm | .fcvtSL rd rs1 rm | .fcvtSLu rd rs1 rm | .fcvtDL rd rs1 rm
  | .fcvtDLu rd rs1 rm => depsCompute (depX rs1 ++ depFrm rm) [.f rd] depNX
  | .fmvWX rd rs1 | .fcvtDW rd rs1 _ | .fcvtDWu rd rs1 _ | .fmvDX rd rs1 | .fcvtQW rd rs1 _ | .fcvtQWu rd rs1 _ => depsCompute (depX rs1) [.f rd] []
  | .fcvtSD rd rs1 rm | .fcvtDS rd rs1 rm => depsCompute ([.f rs1] ++ depFrm rm) [.f rd] depNX
  | .fcvtSQ rd rs1 rm | .fcvtDQ rd rs1 rm => depsCompute ([.f rs1] ++ depFrm rm) [.f rd] depArith
  | .fcvtQS rd rs1 rm | .fcvtQD rd rs1 rm => depsCompute ([.f rs1] ++ depFrm rm) [.f rd] depNV
  | .fcvtQL rd rs1 rm | .fcvtQLu rd rs1 rm => depsCompute (depX rs1 ++ depFrm rm) [.f rd] []
  | .cAddi4spn .. | .cFld .. | .cLq .. | .cLw .. | .cFlw .. | .cLd .. | .cFsd .. | .cSq .. | .cSw .. | .cFsw ..
  | .cSd .. | .cNop .. | .cAddi .. | .cJal .. | .cAddiw .. | .cLi .. | .cAddi16sp .. | .cLui .. | .cSrli ..
  | .cSrai .. | .cAndi .. | .cSub .. | .cXor .. | .cOr .. | .cAnd .. | .cSubw .. | .cAddw .. | .cJ .. | .cBeqz ..
  | .cBnez .. | .cSlli .. | .cFldsp .. | .cLqsp .. | .cLwsp .. | .cFlwsp .. | .cLdsp .. | .cJr .. | .cMv ..
  | .cEbreak | .cJalr .. | .cAdd .. | .cFsdsp .. | .cSqsp .. | .cSwsp .. | .cFswsp .. | .cSdsp .. => depsNone

/-- The registers of an instruction: a compressed one has those of its expansion (R159). -/
def depsOf (ok : Bool) (i : Instr) : Deps := depsBase ok (baseForm i)

/-- Every source register: accumulating CSRs are sources too (R155). -/
def Deps.sources (d : Deps) : List DepReg := d.addr ++ d.data ++ d.other ++ d.acc

/-- The instruction carries a dependency from `p` to `q` (R155). -/
def Deps.carries (d : Deps) (p q : DepReg) : Bool :=
  let listed := (d.addr ++ d.data ++ d.other).contains p
  (match d.carry with
    | .all => listed && d.dst.contains q
    | .nothing => false
    | .only l => l.contains (p, q)) ||
    (d.acc.contains q && (listed || p == q))

/-! ### Annotations of an instruction (R136) -/

/-- The three groups of the A extension. -/
inductive AtomicKind | lr | sc | amo
  deriving DecidableEq, Repr

/-- An atomic instruction's group and its aq and rl bits. -/
structure AtomicBits where
  kind : AtomicKind
  aq   : Bool
  rl   : Bool
  deriving DecidableEq, Repr

/-- The atomic instructions and their bits. -/
def atomicBits : Instr → Option AtomicBits
  | .scW _ _ _ aq rl | .scD _ _ _ aq rl => some ⟨.sc, aq, rl⟩
  | .lrW _ _ aq rl | .lrD _ _ aq rl => some ⟨.lr, aq, rl⟩
  | .amoswapW _ _ _ aq rl | .amoaddW _ _ _ aq rl | .amoxorW _ _ _ aq rl | .amoandW _ _ _ aq rl | .amoorW _ _ _ aq rl
  | .amominW _ _ _ aq rl | .amomaxW _ _ _ aq rl | .amominuW _ _ _ aq rl | .amomaxuW _ _ _ aq rl
  | .amoswapD _ _ _ aq rl | .amoaddD _ _ _ aq rl | .amoxorD _ _ _ aq rl | .amoandD _ _ _ aq rl | .amoorD _ _ _ aq rl
  | .amominD _ _ _ aq rl | .amomaxD _ _ _ aq rl | .amominuD _ _ _ aq rl | .amomaxuD _ _ _ aq rl => some ⟨.amo, aq, rl⟩
  | .lui .. | .auipc .. | .jal .. | .jalr .. | .beq .. | .bne .. | .blt .. | .bge .. | .bltu .. | .bgeu .. | .lb ..
  | .lh .. | .lw .. | .lbu .. | .lhu .. | .sb .. | .sh .. | .sw .. | .addi .. | .slti .. | .sltiu .. | .xori ..
  | .ori .. | .andi .. | .slli .. | .srli .. | .srai .. | .add .. | .sub .. | .sll .. | .slt .. | .sltu .. | .xor ..
  | .srl .. | .sra .. | .or .. | .and .. | .fenceTso .. | .fence .. | .ecall | .ebreak | .lwu .. | .ld .. | .sd ..
  | .addiw .. | .slliw .. | .srliw .. | .sraiw .. | .addw .. | .subw .. | .sllw .. | .srlw .. | .sraw ..
  | .fenceI .. | .csrrw .. | .csrrs .. | .csrrc .. | .csrrwi .. | .csrrsi .. | .csrrci .. | .mul .. | .mulh ..
  | .mulhsu .. | .mulhu .. | .div .. | .divu .. | .rem .. | .remu .. | .mulw .. | .divw .. | .divuw .. | .remw ..
  | .remuw .. | .flw .. | .fsw .. | .fmaddS .. | .fmsubS .. | .fnmsubS .. | .fnmaddS .. | .faddS .. | .fsubS ..
  | .fmulS .. | .fdivS .. | .fsqrtS .. | .fsgnjS .. | .fsgnjnS .. | .fsgnjxS .. | .fminS .. | .fmaxS .. | .feqS ..
  | .fltS .. | .fleS .. | .fclassS .. | .fcvtWS .. | .fcvtWuS .. | .fcvtSW .. | .fcvtSWu .. | .fmvXW .. | .fmvWX ..
  | .fcvtLS .. | .fcvtLuS .. | .fcvtSL .. | .fcvtSLu .. | .fld .. | .fsd .. | .fmaddD .. | .fmsubD .. | .fnmsubD ..
  | .fnmaddD .. | .faddD .. | .fsubD .. | .fmulD .. | .fdivD .. | .fsqrtD .. | .fsgnjD .. | .fsgnjnD ..
  | .fsgnjxD .. | .fminD .. | .fmaxD .. | .fcvtSD .. | .fcvtDS .. | .feqD .. | .fltD .. | .fleD .. | .fclassD ..
  | .fcvtWD .. | .fcvtWuD .. | .fcvtDW .. | .fcvtDWu .. | .fcvtLD .. | .fcvtLuD .. | .fcvtDL .. | .fcvtDLu ..
  | .fmvXD .. | .fmvDX .. | .flq .. | .fsq .. | .fmaddQ .. | .fmsubQ .. | .fnmsubQ .. | .fnmaddQ .. | .faddQ ..
  | .fsubQ .. | .fmulQ .. | .fdivQ .. | .fsqrtQ .. | .fsgnjQ .. | .fsgnjnQ .. | .fsgnjxQ .. | .fminQ .. | .fmaxQ ..
  | .fcvtSQ .. | .fcvtQS .. | .fcvtDQ .. | .fcvtQD .. | .feqQ .. | .fltQ .. | .fleQ .. | .fclassQ .. | .fcvtWQ ..
  | .fcvtWuQ .. | .fcvtQW .. | .fcvtQWu .. | .fcvtLQ .. | .fcvtLuQ .. | .fcvtQL .. | .fcvtQLu .. | .cAddi4spn ..
  | .cFld .. | .cLq .. | .cLw .. | .cFlw .. | .cLd .. | .cFsd .. | .cSq .. | .cSw .. | .cFsw .. | .cSd .. | .cNop ..
  | .cAddi .. | .cJal .. | .cAddiw .. | .cLi .. | .cAddi16sp .. | .cLui .. | .cSrli .. | .cSrai .. | .cAndi ..
  | .cSub .. | .cXor .. | .cOr .. | .cAnd .. | .cSubw .. | .cAddw .. | .cJ .. | .cBeqz .. | .cBnez .. | .cSlli ..
  | .cFldsp .. | .cLqsp .. | .cLwsp .. | .cFlwsp .. | .cLdsp .. | .cJr .. | .cMv .. | .cEbreak | .cJalr ..
  | .cAdd .. | .cFsdsp .. | .cSqsp .. | .cSwsp .. | .cFswsp .. | .cSdsp .. => none

/-- An acquire-RCsc annotation (R136; every AMO has it under Ztso, R160). -/
def acquireRcsc (c : Config) (i : Instr) : Bool :=
  match atomicBits i with
  | some ⟨.lr, aq, _⟩ => aq
  | some ⟨.sc, aq, rl⟩ => aq && rl
  | some ⟨.amo, aq, _⟩ => aq || c.ext.ztso
  | none => false

/-- A release-RCsc annotation (R136, R160). -/
def releaseRcsc (c : Config) (i : Instr) : Bool :=
  match atomicBits i with
  | some ⟨.lr, aq, rl⟩ => aq && rl
  | some ⟨.sc, _, rl⟩ => rl
  | some ⟨.amo, _, rl⟩ => rl || c.ext.ztso
  | none => false

/-! ### Candidate executions (R132, R133) -/

/-- One step of a hart's dynamic stream. -/
structure Issued where
  /-- the instruction that completed; none where the step took an exception, of which nothing else happened (R806) -/
  instr : Option Instr
  /-- the effective address of its access, if it makes one -/
  addr  : Nat
  /-- it is an SC that succeeded -/
  ok    : Bool
  /-- the bytes of main memory the environment stored, where the step took an exception (R805) -/
  env   : List Nat
  /-- the fetch view is brought up to date: a FENCE.I, or the environment's doing -/
  sync  : Bool
  /-- the hart's `time` -/
  time  : BitVec 64
  deriving DecidableEq, Repr

/-- The group of an atomic instruction. -/
def Issued.atomic (m : Issued) : Option AtomicKind := (m.instr.bind atomicBits).map AtomicBits.kind

/-- The explicit access the step made or, for a failed SC, would have made. -/
def Issued.access (m : Issued) : Option MemAccess := m.instr.bind memAccess

/-- A failed SC. -/
def Issued.failed (m : Issued) : Bool := m.atomic == some .sc && !m.ok

/-- The registers of the step; a step that took an exception has none. -/
def Issued.deps (m : Issued) : Deps :=
  match m.instr with
  | some i => depsOf m.ok i
  | none => depsNone

/-- What an operation accesses: main memory, a device (R81), bytes of both, or, for FENCE, a CSR (R117). An aligned access is
one operation wherever its bytes lie (R103, R133). DESIGN CHOICE (log 27): one with bytes of main memory and of a device is a
memory operation and an I/O operation at once. -/
inductive OpClass
  | main
  | device
  | both
  | csr
  deriving DecidableEq, Repr, Inhabited

/-- The operation accesses main memory. -/
def OpClass.inMain : OpClass → Bool
  | .main | .both => true
  | .device | .csr => false

/-- The operation accesses a device. -/
def OpClass.inDevice : OpClass → Bool
  | .device | .both => true
  | .main | .csr => false

/-- What an operation with these bytes accesses. A CSR access has none. -/
def classOf (c : Config) (bytes : List Nat) : OpClass :=
  if bytes.isEmpty then .csr
  else if bytes.all (isIo c) then .device
  else if bytes.any (isIo c) then .both
  else .main

/-- One operation: the hart and the position in its stream of the step that generates it, the bytes it accesses, what they
belong to, whether it is a load, a store or both, and what it reads and writes, byte by byte. A CSR access is an operation
without bytes, a load where it reads the CSR and a store where it writes it. DESIGN CHOICE (log 29): the spec says how FENCE
classifies CSR accesses (R117, R493) and gives them no place of their own in the global memory order. -/
structure MemOp where
  hart   : Nat
  pos    : Nat
  bytes  : List Nat
  cls    : OpClass
  load   : Bool
  store  : Bool
  reads  : List Byte
  writes : List Byte
  deriving DecidableEq, Repr, Inhabited

/-- A candidate execution: the initial memory, each hart's stream in program order, and every operation in global memory
order (R132). An operation is named by its place in that order. -/
structure Execution where
  initial : Memory
  streams : List (List Issued)
  gmo     : List MemOp
  deriving DecidableEq, Repr

/-- The operation at a place of the global memory order. -/
def Execution.op (e : Execution) (i : Nat) : MemOp := e.gmo.getD i default

/-- The step at a position of a hart. -/
def Execution.at? (e : Execution) (h p : Nat) : Option Issued := (e.streams.getD h [])[p]?

/-- The step that generates an operation. -/
def Execution.stepOf (e : Execution) (o : MemOp) : Option Issued := e.at? o.hart o.pos

/-- The steps of a hart strictly between two positions. -/
def Execution.between (e : Execution) (h p q : Nat) : List Issued := ((e.streams.getD h []).take q).drop (p + 1)

/-- The places of the operations a step generates. -/
def Execution.places (e : Execution) (h p : Nat) : List Nat :=
  (List.range e.gmo.length).filter fun i => (e.op i).hart == h && (e.op i).pos == p

/-- Program order of operations (R133): components of one instruction are not ordered. -/
def Execution.po (e : Execution) (i j : Nat) : Bool :=
  (e.op i).hart == (e.op j).hart && decide ((e.op i).pos < (e.op j).pos)

/-- Two operations access a common byte. -/
def overlaps (a b : MemOp) : Bool := a.bytes.any b.bytes.contains

/-- The operation stores to a byte. -/
def storesTo (o : MemOp) (x : Nat) : Bool := o.store && o.bytes.contains x

/-- The operation loads a byte. -/
def loadsFrom (o : MemOp) (x : Nat) : Bool := o.load && o.bytes.contains x

/-- The byte of an operation's list at an address. -/
def byteAt (o : MemOp) (vs : List Byte) (x : Nat) : Byte := vs.getD (o.bytes.idxOf x) 0

/-- The candidates of the load value axiom for byte x of load i: stores to x before i in the global memory order or in
program order (R150). -/
def Execution.candidate (e : Execution) (i x k : Nat) : Bool :=
  k != i && storesTo (e.op k) x && (decide (k < i) || e.po k i)

/-- The store byte x of load i reads from: the latest candidate in global memory order; none is the initial memory
(R150). -/
def Execution.readsFrom (e : Execution) (i x : Nat) : Option Nat :=
  ((List.range e.gmo.length).filter (e.candidate i x)).getLast?

/-! ### Syntactic dependencies (R139) -/

/-- The registers through which a dependency that reached `live` before an instruction reaches beyond it: those it does
not overwrite (an accumulation overwrites nothing), and those it carries the dependency to. -/
def carryThrough (live : List DepReg) (m : Issued) : List DepReg :=
  live.filter (fun r => !m.deps.dst.contains r) ++
    (m.deps.dst ++ m.deps.acc).filter fun q => live.any fun p => m.deps.carries p q

/-- The registers through which the instruction at position q has a dependency on the one at position p, whichever of
them it reads. -/
def Execution.liveAt (e : Execution) (h p q : Nat) : List DepReg :=
  match e.at? h p with
  | some i => (e.between h p q).foldl carryThrough (i.deps.dst ++ i.deps.acc)
  | none => []

/-- The instruction at position q has a syntactic dependency on the one at position p through one of its sources that
`which` selects (R139). -/
def Execution.depends (e : Execution) (which : Deps → List DepReg) (h p q : Nat) : Bool :=
  match e.at? h q with
  | some j => (which j.deps).any (e.liveAt h p q).contains
  | none => false

/-- Syntactic address dependency of operation j on operation i (R139). -/
def Execution.addrDep (e : Execution) (i j : Nat) : Bool :=
  e.po i j && e.depends Deps.addr (e.op i).hart (e.op i).pos (e.op j).pos

/-- Syntactic data dependency (R139). -/
def Execution.dataDep (e : Execution) (i j : Nat) : Bool :=
  e.po i j && (e.op j).store && e.depends Deps.data (e.op i).hart (e.op i).pos (e.op j).pos

/-- A branch or an indirect jump (R139). -/
def isBranchOrIndirect (i : Instr) : Bool :=
  match baseForm i with
  | .beq .. | .bne .. | .blt .. | .bge .. | .bltu .. | .bgeu .. | .jalr .. => true
  | _ => false

/-- Syntactic control dependency (R139). -/
def Execution.ctrlDep (e : Execution) (i j : Nat) : Bool :=
  e.po i j && (List.range (e.op j).pos).any fun k =>
    decide ((e.op i).pos < k) &&
      (match e.at? (e.op i).hart k with
        | some m => m.instr.any isBranchOrIndirect
        | none => false) &&
      e.depends Deps.sources (e.op i).hart (e.op i).pos k

/-! ### Preserved program order (R140 to R149) -/

/-- Membership in a fence's four-bit set: input, output, reads, writes. A device's load and a CSR read are input, a device's
store and a CSR write output (R142, R117, R181). -/
def inFenceSet (set : BitVec 4) (o : MemOp) : Bool :=
  (o.cls.inMain && ((set.getLsbD 1 && o.load) || (set.getLsbD 0 && o.store))) ||
    ((o.cls.inDevice || o.cls == .csr) && ((set.getLsbD 3 && o.load) || (set.getLsbD 2 && o.store)))

/-- A fence orders a before b (R142, R143); a reserved fm acts as 0 (R324). -/
def fenceOrders (f : Instr) (a b : MemOp) : Bool :=
  match f with
  | .fence _ pred succ _ _ => inFenceSet pred a && inFenceSet succ b
  | .fenceTso .. => a.cls.inMain && b.cls.inMain && (a.load || (a.store && b.store))
  | _ => false

/-- The instructions at the operations' positions are a paired LR and SC (R135). -/
def Execution.paired (e : Execution) (i j : Nat) : Bool :=
  e.po i j && ((e.stepOf (e.op i)).bind Issued.atomic == some .lr) &&
    ((e.stepOf (e.op j)).bind Issued.atomic == some .sc) &&
    (e.between (e.op i).hart (e.op i).pos (e.op j).pos).all fun m => m.atomic != some .lr && m.atomic != some .sc

/-- A predicate of the instruction that generates an operation. -/
def Execution.annotated (e : Execution) (which : Instr → Bool) (i : Nat) : Bool :=
  match e.stepOf (e.op i) with
  | some m => m.instr.any which
  | none => false

/-- An acquire annotation: RCsc, or RCpc on every load under Ztso (R136, R160). -/
def Execution.acquire (c : Config) (e : Execution) (i : Nat) : Bool :=
  e.annotated (acquireRcsc c) i || (c.ext.ztso && (e.op i).load)

/-- A release annotation: RCsc, or RCpc on every store under Ztso (R136, R160). -/
def Execution.release (c : Config) (e : Execution) (i : Nat) : Bool :=
  e.annotated (releaseRcsc c) i || (c.ext.ztso && (e.op i).store)

/-- An RCsc annotation of either kind (R136). -/
def Execution.rcsc (c : Config) (e : Execution) (i : Nat) : Bool :=
  e.annotated (acquireRcsc c) i || e.annotated (releaseRcsc c) i

/-- No store to byte x stands between two operations in program order. -/
def Execution.noStoreBetween (e : Execution) (x i j : Nat) : Bool :=
  (List.range e.gmo.length).all fun k => !(storesTo (e.op k) x && e.po i k && e.po k j)

/-- The instruction is an AMO or an SC. -/
def isAmoOrSc (i : Instr) : Bool :=
  match atomicBits i with
  | some b => b.kind == .amo || b.kind == .sc
  | none => false

/-- Rules 1 to 3 of R140: overlapping addresses. -/
def Execution.ppoOverlap (e : Execution) (i j : Nat) : Bool :=
  ((e.op j).store && overlaps (e.op i) (e.op j)) ||
    ((e.op i).bytes.any fun x => loadsFrom (e.op i) x && loadsFrom (e.op j) x && e.noStoreBetween x i j &&
      e.readsFrom i x != e.readsFrom j x) ||
    (e.annotated isAmoOrSc i && (e.op j).bytes.any fun x => loadsFrom (e.op j) x && e.readsFrom j x == some i)

/-- Rule 4 of R140: a fence between them. -/
def Execution.ppoFence (e : Execution) (i j : Nat) : Bool :=
  (e.between (e.op i).hart (e.op i).pos (e.op j).pos).any fun m =>
    m.instr.any fun f => fenceOrders f (e.op i) (e.op j)

/-- Rules 5 to 7 of R140: annotations. They order memory operations among themselves and device operations among
themselves (R180), and no CSR access, which carries none. -/
def Execution.ppoAnnotation (c : Config) (e : Execution) (i j : Nat) : Bool :=
  (((e.op i).cls.inMain && (e.op j).cls.inMain) || ((e.op i).cls.inDevice && (e.op j).cls.inDevice)) &&
    (e.acquire c i || e.release c j || (e.rcsc c i && e.rcsc c j))

/-- Rules 9 to 11 of R140: syntactic dependencies. -/
def Execution.ppoSyntactic (e : Execution) (i j : Nat) : Bool :=
  e.addrDep i j || e.dataDep i j || ((e.op j).store && e.ctrlDep i j)

/-- Rules 12 and 13 of R140: pipeline dependencies, all between operations: what generates none, as a failed SC, has no part
in them (R139, R149). Nor has a CSR access, which FENCE and syntactic dependencies alone order (R117, R493; log 29). -/
def Execution.ppoPipeline (e : Execution) (i j : Nat) : Bool :=
  (e.op i).cls != .csr && (e.op j).cls != .csr &&
    (((e.op j).load && (List.range e.gmo.length).any fun k =>
        e.po i k && e.po k j && (e.op k).store && (e.addrDep i k || e.dataDep i k) &&
          (e.op j).bytes.any fun x => loadsFrom (e.op j) x && e.readsFrom j x == some k) ||
      ((e.op j).store && (List.range e.gmo.length).any fun k => e.po k j && e.addrDep i k))

/-- The thirteen rules for a pair in program order, whatever it accesses (R140; for devices R180 rule 1, for CSR accesses
R117). -/
def Execution.ppoRules (c : Config) (e : Execution) (i j : Nat) : Bool :=
  e.ppoOverlap i j || e.ppoFence i j || e.ppoAnnotation c i j || e.paired i j ||
    e.ppoSyntactic i j || e.ppoPipeline i j

/-- Rules 2 to 5 of R180, for two device accesses: a common byte of a device, the same strongly ordered region, channel 1 on
either side, or the same channel other than 0. -/
def ioOrders (c : Config) (a b : MemOp) : Bool :=
  a.cls.inDevice && b.cls.inDevice &&
    a.bytes.any fun x => b.bytes.any fun y => isIo c x && isIo c y &&
      (x == y || match regionAt c x, regionAt c y with
        | some r, some q => (r.strong && decide (r = q)) || r.channel == 1 || q.channel == 1 ||
            (r.channel == q.channel && r.channel != 0)
        | _, _ => false)

/-- The operations that are ordered as one: all of an AMO's, for preserved program order behaves as if a decomposed AMO were
a single operation (R162); else the operation alone. -/
def Execution.parts (e : Execution) (i : Nat) : List Nat :=
  match (e.stepOf (e.op i)).bind Issued.access with
  | some m => if m.isAmo then e.places (e.op i).hart (e.op i).pos else [i]
  | none => [i]

/-- A relation of operations in program order that holds where it holds of parts of the instructions' operations (R162). -/
def Execution.asOne (e : Execution) (r : Nat → Nat → Bool) (i j : Nat) : Bool :=
  e.po i j && (e.parts i).any fun a => (e.parts j).any fun b => r a b

/-- The additional rule the source suggests for mixed-size RSW (R172): a load, a load after it that reads a byte of it with no
store to that byte between them, and a store that the second load precedes in preserved program order. -/
def Execution.ppoRsw (e : Execution) (precedes : Nat → Nat → Bool) (i j : Nat) : Bool :=
  (e.op i).load && (e.op i).cls.inMain && (e.op j).store && (e.op j).cls.inMain &&
    (List.range e.gmo.length).any fun k => e.po i k && precedes k j &&
      (e.op i).bytes.any fun x => loadsFrom (e.op i) x && loadsFrom (e.op k) x && e.noStoreBetween x i k

/-- Preserved program order through a number of uses of the additional rule, where the configuration asks for it (R172, D24).
DESIGN CHOICE (log 27): preserved program order in that rule includes the rule itself, as its prose reads; its herd form would
take the thirteen rules alone. -/
def Execution.ppoWithin (c : Config) (e : Execution) : Nat → Nat → Nat → Bool
  | 0 => e.asOne fun a b => e.ppoRules c a b || ioOrders c (e.op a) (e.op b)
  | uses + 1 => e.asOne fun a b => e.ppoRules c a b || ioOrders c (e.op a) (e.op b) ||
      (c.ppoRswExtra && e.ppoRsw (e.ppoWithin c uses) a b)

/-- Preserved program order: the definition of R140 on main memory, extended to device accesses as R180 says and to CSR
accesses as R117 says. Each use of the additional rule goes on to a later load, so their number is bounded. -/
def Execution.ppo (c : Config) (e : Execution) (i j : Nat) : Bool := e.ppoWithin c e.gmo.length i j

/-! ### Which operations a step generates (R133, R134) -/

/-- The bytes of the access of a step. -/
def accessBytes (c : Config) (m : Issued) (n : Nat) : List Nat := (List.range n).map fun b => (m.addr + b) % 2 ^ c.xlen.bits

/-- An access that may be decomposed into several operations: a misaligned one, and one wider than XLEN (R134). Every other
is one operation (R103, R133). -/
def decomposable (c : Config) (m : Issued) (n : Nat) : Bool := m.addr % n != 0 || decide (c.xlen.bits < 8 * n)

/-- The operations of a step that `which` selects share out a list of bytes. -/
def Execution.sharesOut (e : Execution) (h p : Nat) (which : MemOp → Bool) (bytes : List Nat) : Bool :=
  let got := (e.places h p).flatMap fun i => if which (e.op i) then (e.op i).bytes else []
  got.length == bytes.length && got.all bytes.contains && bytes.all fun x => got.count x == 1

/-- The operations of one step are the ones it generates. None for a failed SC and for an instruction that makes no access;
one for an aligned access, the load and the store of an aligned AMO at once (R133); where the access may be decomposed, any
loads that share out its bytes if it loads, and any stores that do if it stores: the load part and the store part of a
misaligned AMO may be the same operations or different ones (R134, R162); one for a CSR access (R117). The bytes the
environment stores in a trap are stores of the trapping step, decomposed in any way (log 28). -/
def Execution.generates (c : Config) (e : Execution) (h p : Nat) (m : Issued) : Bool :=
  match m.access, m.instr.bind csrUse with
  | some k, _ =>
    if m.failed then (e.places h p).isEmpty
    else
      e.sharesOut h p MemOp.load (if k.loads then accessBytes c m k.width else []) &&
        e.sharesOut h p MemOp.store (if k.stores then accessBytes c m k.width else []) &&
        ((e.places h p).length == 1 || decomposable c m k.width) &&
        (e.places h p).all fun i => (e.op i).cls != .csr
  | none, some u =>
    (e.places h p).length == 1 && (e.places h p).all fun i =>
      (e.op i).cls == .csr && (e.op i).load == u.reads && (e.op i).store == u.writes
  | none, none =>
    e.sharesOut h p MemOp.store m.env && (e.places h p).all fun i => !(e.op i).load && (e.op i).cls == .main

/-- Every operation belongs to a step, has one value for each byte it reads or writes, and accesses what it says. -/
def Execution.wellFormed (c : Config) (e : Execution) : Bool :=
  (e.gmo.all fun o => (e.stepOf o).isSome && (o.load || o.store) &&
    o.reads.length == (if o.load then o.bytes.length else 0) &&
    o.writes.length == (if o.store then o.bytes.length else 0) &&
    o.cls == classOf c o.bytes) &&
    (List.range e.streams.length).all fun h => (List.range (e.streams.getD h []).length).all fun p =>
      match e.at? h p with
      | some m => e.generates c h p m
      | none => true

/-! ### The axioms (R132, R150, R151, R162) -/

/-- Preserved program order is part of the global memory order (R140). -/
def Execution.respectsPpo (c : Config) (e : Execution) : Bool :=
  (List.range e.gmo.length).all fun i => (List.range e.gmo.length).all fun j => !e.ppo c i j || decide (i < j)

/-- The value a load byte returns by the load value axiom (R150). -/
def Execution.valueRead (e : Execution) (i x : Nat) : Byte :=
  match e.readsFrom i x with
  | some k => byteAt (e.op k) (e.op k).writes x
  | none => readByte e.initial x

/-- The load value axiom, to which bytes read from a device are not subject (R150, R180). -/
def Execution.loadValues (c : Config) (e : Execution) : Bool :=
  (List.range e.gmo.length).all fun i => !(e.op i).load ||
    (e.op i).bytes.all fun x => isIo c x || byteAt (e.op i) (e.op i).reads x == e.valueRead i x

/-- A place of the order is after what a load byte reads from; the initial memory is before every place. -/
def afterSource (source : Option Nat) (k : Nat) : Bool :=
  match source with
  | some s => decide (s < k)
  | none => true

/-- The atomicity axiom for a paired LR and SC to main memory, and that what the LR reads precedes the SC (R151); it does
not apply to a device's bytes (R130, R180). -/
def Execution.atomicPairs (c : Config) (e : Execution) : Bool :=
  (List.range e.gmo.length).all fun r => (List.range e.gmo.length).all fun w =>
    !e.paired r w || (e.op r).bytes.all fun x => isIo c x ||
      ((match e.readsFrom r x with
        | some s => decide (s < w)
        | none => true) &&
      (List.range e.gmo.length).all fun k =>
        !(storesTo (e.op k) x && (e.op k).hart != (e.op r).hart && afterSource (e.readsFrom r x) k && decide (k < w)))

/-- An operation's instruction accesses an address with a width. -/
def Execution.accesses (e : Execution) (o : MemOp) (a n : Nat) : Bool :=
  match e.stepOf o with
  | some m => m.addr == a && m.access.any fun k => k.width == n
  | none => false

/-- Two operations of one misaligned AMO to main memory, with its address and width (R162). -/
def Execution.misalignedAmo (e : Execution) (i j : Nat) : Option (Nat × Nat) :=
  match e.stepOf (e.op i), (e.stepOf (e.op i)).bind Issued.access with
  | some m, some k =>
    if (e.op i).hart == (e.op j).hart && (e.op i).pos == (e.op j).pos && k.isAmo && m.addr % k.width != 0 &&
        (e.op i).cls.inMain && (e.op j).cls.inMain then some (m.addr, k.width)
    else none
  | _, _ => none

/-- The atomicity axiom of Zam (R162): between the operations of a misaligned AMO there is no store of another hart to the
same address and of the same size, nor, between two of its loads or two of its stores, such a load. -/
def Execution.atomicMisaligned (e : Execution) : Bool :=
  (List.range e.gmo.length).all fun i => (List.range e.gmo.length).all fun j =>
    match e.misalignedAmo i j with
    | some (a, n) => (List.range e.gmo.length).all fun z =>
        !(decide (i < z) && decide (z < j) && (e.op z).hart != (e.op i).hart && e.accesses (e.op z) a n &&
          ((e.op z).store || ((e.op z).load &&
            (((e.op i).load && (e.op j).load) || ((e.op i).store && (e.op j).store)))))
    | none => true

/-- What an AMO loads of a byte it loads before it stores to that byte: a decomposed AMO computes what it writes from what
it reads (R455, R466). DEDUCED (log 29): the spec orders the parts of a decomposed AMO no further. -/
def Execution.loadsBeforeStores (e : Execution) : Bool :=
  (List.range e.gmo.length).all fun i => (List.range e.gmo.length).all fun j =>
    !((e.op i).hart == (e.op j).hart && (e.op i).pos == (e.op j).pos && (e.op i).load && (e.op j).store &&
      overlaps (e.op i) (e.op j)) || decide (i ≤ j)

/-- A legal execution as far as the memory model is concerned (R132). -/
def Execution.legal (c : Config) (e : Execution) : Bool :=
  e.wellFormed c && e.respectsPpo c && e.loadValues c && e.atomicPairs c && e.atomicMisaligned && e.loadsBeforeStores

/-! ### What a fetch sees, and the memory at the end (R71, R120, R185) -/

/-- The position after a hart's last step before p that brought its fetch view up to date; 0 where there is none. -/
def Execution.lastSync (e : Execution) (h p : Nat) : Nat :=
  match ((List.range p).filter fun q => (e.at? h q).any Issued.sync).getLast? with
  | some q => q + 1
  | none => 0

/-- The operation at place k stores to byte x of main memory. What a hart writes to a device is no memory (R104). -/
def Execution.storesMain (c : Config) (e : Execution) (k x : Nat) : Bool := storesTo (e.op k) x && !isIo c x

/-- The store at place k is visible to a hart at a position of its stream: it is the hart's own and earlier in program order,
or another's that precedes in the global memory order a load from main memory the hart made earlier. DESIGN CHOICE (log 18): a
device access, a CSR access or a trap by which a request arrives makes no other hart's store visible (R121, R872). -/
def Execution.visibleTo (e : Execution) (h p k : Nat) : Bool :=
  if (e.op k).hart == h then decide ((e.op k).pos < p)
  else (List.range e.gmo.length).any fun l =>
    (e.op l).hart == h && decide ((e.op l).pos < p) && (e.op l).load && (e.op l).cls.inMain && decide (k < l)

/-- The stores to a byte that a hart had seen when it last brought its fetch view up to date. -/
def Execution.seenStores (c : Config) (e : Execution) (h p x : Nat) : List Nat :=
  (List.range e.gmo.length).filter fun k => e.storesMain c k x && e.visibleTo h (e.lastSync h p) k

/-- A fetch of byte x at a position of a hart's stream may give a value (R120, D21): that of a store which is not the hart's
own from that position on and is as new as every store the hart had seen when it last brought its fetch view up to date; or
the initial one, if it had seen none. So another hart's code is fetched at the latest after that hart's stores are visible to
this one and this one executes FENCE.I (R121, R872), and may be fetched before. Neither the fetch nor FENCE.I orders any
operation (R185): some value can always be fetched. -/
def Execution.fetchSees (c : Config) (e : Execution) (h p x : Nat) (b : Byte) : Bool :=
  ((e.seenStores c h p x).isEmpty && readByte e.initial x == b) ||
    (List.range e.gmo.length).any fun k =>
      e.storesMain c k x && !((e.op k).hart == h && decide (p ≤ (e.op k).pos)) &&
        (e.seenStores c h p x).all (fun v => decide (v ≤ k)) && byteAt (e.op k) (e.op k).writes x == b

/-- Byte x of main memory holds a value at some time in the execution. -/
def Execution.holds (c : Config) (e : Execution) (x : Nat) (b : Byte) : Bool :=
  readByte e.initial x == b ||
    (List.range e.gmo.length).any fun k => e.storesMain c k x && byteAt (e.op k) (e.op k).writes x == b

/-- Memory with given bytes stored. -/
def writeBytes (m : Memory) (l : List (Nat × Byte)) : Memory := l.foldl (fun m c => writeByte m c.1 c.2) m

/-- Main memory after the last operation: each byte as the last store to it in global memory order left it (R132, R827). -/
def Execution.finalMemory (c : Config) (e : Execution) : Memory :=
  e.gmo.foldl (fun m o => if o.store then writeBytes m ((o.bytes.zip o.writes).filter fun b => !isIo c b.1) else m) e.initial

/-! ### Harts that run the streams of a candidate (R132, R173, R835, R861) -/

/-- The steps the environment takes for a hart in a trap (R805): which bytes of main memory it stores, and whether it brings
the fetch view up to date. -/
def trappedStep (s : State) (c : Cause) : Issued :=
  match environmentAnswer s (s.trapRecord c) with
  | .terminate _ => { instr := none, addr := 0, ok := false, env := [], sync := false, time := s.time }
  | .resume r =>
    { instr := none, addr := 0, ok := false, sync := r.syncFetch, time := s.time
      env := ((r.stores.map fun b => b.1 % 2 ^ s.xlen.bits).filter fun a => !isIo s.cfg a).eraseDups }

/-- A FENCE.I. -/
def isFenceI (i : Instr) : Bool :=
  match i with
  | .fenceI .. => true
  | _ => false

/-- What a state's step is in its hart's stream, given what it fetched: the instruction with the effective address its
access has in that state and, for an SC, its success; or the exception it takes. -/
def issuedBy (s : State) (f : Except Cause Code) : Issued :=
  match f with
  | .error c => trappedStep s c
  | .ok code =>
    match decode s.cfg code with
    | none => trappedStep s (.illegalInstruction code)
    | some i =>
      match trapOf i s with
      | some c => trappedStep s c
      | none =>
        { instr := some i, env := [], sync := isFenceI i, time := s.time
          addr := match memAccess i with
            | some k => (k.addr s).toNat
            | none => 0
          ok := match memAccess i with
            | some k => k.kind == .sc && scSucceeds s k.width (k.addr s)
            | none => false }

/-- A state with another memory, to which its fetch view is up to date. -/
def State.withMemory (s : State) (m : Memory) : State := { s with mem := m, stale := [] }

/-- A step of a hart wrote a byte: memory shows it, or, in a device's range, the access recorded last. -/
def showsWrite (u : State) (a : Nat) (b : Byte) : Prop :=
  if isIo u.cfg a then
    ∃ ev ∈ u.io.head?, ev.kind = .write ∧
      (a, b) ∈ (accessAddrs u.xlen (BitVec.ofNat 64 ev.addr) ev.width).zip (inOrder u.cfg.endian (valueBytes ev.width ev.value))
  else readByte u.mem a = b

/-- The bytes the operations of a step read, or write. -/
def Execution.bytesOf (e : Execution) (h p : Nat) (which : MemOp → List Byte) : List (Nat × Byte) :=
  (e.places h p).flatMap fun i => (e.op i).bytes.zip (which (e.op i))

/-- One step of a hart in a candidate: it fetches bytes the hart may see there, it reads what its loads read, it is the step
its stream holds, and its stores write what it writes. What memory holds where it does not load is known only to be some
value the byte has in the execution: an environment may look at it. Other harts and the environment may end the hart's
reservation before any step (R441, R443). -/
def hartStep (e : Execution) (h p : Nat) (m : Issued) (s u : State) : Prop :=
  ∃ (code data : Memory) (r : Option Reservation), (r = s.reservation ∨ r = none) ∧
    (∀ a, e.fetchSees s.cfg h p a (readByte code a) = true) ∧ (∀ a, e.holds s.cfg a (readByte data a) = true) ∧
      let v : State := { s.withMemory data with reservation := r }
      let fetched := (s.withMemory code).fetch
      (∀ b ∈ e.bytesOf h p MemOp.reads, v.dataByte b.1 = b.2) ∧ m = issuedBy v fetched ∧ execFetched v fetched = .next u ∧
        ∀ b ∈ e.bytesOf h p MemOp.writes, showsWrite u b.1 b.2

/-- A hart runs its stream from position p on. -/
def hartRuns (e : Execution) (h : Nat) : State → Nat → List Issued → State → Prop
  | s, _, [], t => t = s
  | s, p, m :: l, t => s.status = .running ∧ ∃ u, hartStep e h p m s u ∧ hartRuns e h u.tick (p + 1) l t

/-- The state a hart starts in (R861): the shared configuration and initial memory, its own number, no reservation, a fetch
view equal to memory, and otherwise any values that its registers can hold: `State.Inv` says that the pc and the x registers
have XLEN bits, the f registers FLEN, fcsr its eight, that the pc is one to start at (U80) and memory in the address space. -/
def startsIn (c : Config) (initial : Memory) (h : Nat) (s : State) : Prop :=
  s.cfg = c ∧ s.mem = initial ∧ s.hart = h ∧ s.reservation = none ∧ s.stale = [] ∧ s.io = [] ∧ s.status = .running ∧
    s.Inv

/-- The report with which a hart's run ended the execution. -/
def reportOf (u : State) : Option Report :=
  match u.status with
  | .terminated r => some r
  | .running => none

/-- The status of every hart at the end of an execution whose harts' runs end in these states: where one of them terminated it,
all have stopped, with that one's report (R805, R827). -/
def endStatus (runs : List State) : RunStatus :=
  match runs.findSome? reportOf with
  | some r => .terminated r
  | none => .running

/-- The state a hart ends in, whose own registers are those of `u`, after the last instruction it completed (R827): the shared
final memory, the status the execution ends with, and a fetch view that holds what a next fetch could see. -/
def endsIn (c : Config) (e : Execution) (h p : Nat) (status : RunStatus) (u t : State) : Prop :=
  t = { u with mem := e.finalMemory c, stale := t.stale, status := status } ∧
    ∀ a b, (b = readByte t.mem a ∨ b ∈ heldBytes t.stale a) ↔ e.fetchSees c h p a b = true

/-- The harts' real-time clocks agree to within one tick (R501): of two reads of `time`, the one later in the order gives at
most one tick less. DESIGN CHOICE (log 30): an instant is a place in the global memory order. -/
def Execution.clocksAgree (e : Execution) : Prop :=
  ∀ i j m k, i < j → j < e.gmo.length → e.stepOf (e.op i) = some m → e.stepOf (e.op j) = some k →
    m.instr.any readsTime = true → k.instr.any readsTime = true → m.time.toNat ≤ k.time.toNat + 1

/-- An outcome of several harts that start together (R132, R173, R835, R861): one admitted configuration, one memory and
one time for all, and a legal candidate whose streams they run. A stream may end anywhere. The first trap whose environment
terminates ends the execution of every hart, so that at most one hart's run ends so; which does, where several would, is
open (R805, R826, R827). -/
def outcome (c : Config) (initial : Memory) (starts finals : List State) : Prop :=
  configLegal c = true ∧ Memory.wf initial = true ∧ starts ≠ [] ∧ (∀ s ∈ starts, ∀ t ∈ starts, s.time = t.time) ∧
    ∃ (e : Execution) (runs : List State), e.initial = initial ∧ e.legal c = true ∧ e.clocksAgree ∧
      e.streams.length = starts.length ∧ runs.length = starts.length ∧ finals.length = starts.length ∧
      (runs.filterMap reportOf).length ≤ 1 ∧
      ∀ h s u t, starts[h]? = some s → runs[h]? = some u → finals[h]? = some t →
        startsIn c initial h s ∧ hartRuns e h s 0 (e.streams.getD h []) u ∧
          endsIn c e h (e.streams.getD h []).length (endStatus runs) u t

end Sys2Proof.Machine
end

