-- ==== Sys2Proof/Certificates/Slice0/Obligations.lean ====
section
/-!
DEFINITION. The statements for the provers. Each docstring names the rules of spec/ it rests on. The terms are those of
Safety.lean: `Completes i s p` says that the instruction answers a next state, with property p.

Instructions that exist at XLEN = 64 only are stated at every XLEN; the decoder gives them at 64 only.
-/
section
open Sys2Proof Sys2Proof.Machine

/-! ### Encoding -/

/-- Decoding an encoded instruction gives it back, for every instruction that exists in the configuration (R194, R724). -/
def Obligations.DecodeEncodeRoundTrip : Prop :=
  ∀ (c : Config) (i : Instr), WellFormed c i → decode c (encode i) = some i

/-- No two codes decode to one instruction: a decoded code is the encoding of what it decodes to, so no bit of a code is
dropped, and the instruction exists in the configuration (R194). -/
def Obligations.EncodeDecodeRoundTrip : Prop :=
  ∀ (c : Config) (code : Code) (i : Instr), decode c code = some i → encode i = code ∧ WellFormed c i

/-- Words of the spec's examples decode to the instructions it names (R286, R287, R291, R330, R405, R436, R457, R548, R774,
R775), and the two codes it defines as illegal to nothing (R192, R728). -/
def Obligations.DecodeSampleWords : Prop :=
  decode resetConfig (.word 0x8062F063#32) = some (.bgeu 5 6 (BitVec.ofInt 12 (-2048))) ∧
    decode resetConfig (.word 0xFE029CE3#32) = some (.bne 5 0 (BitVec.ofInt 12 (-4))) ∧
    decode resetConfig (.word 0x00628463#32) = some (.beq 5 6 4) ∧
    decode resetConfig (.word 0x027342B3#32) = some (.div 5 6 7) ∧
    decode resetConfig (.word 0x18C522AF#32) = some (.scW 5 10 12 false false) ∧
    decode resetConfig (.word 0x0655232F#32) = some (.amoaddW 6 10 5 true true) ∧
    decode resetConfig (.word 0x28C59553#32) = some (.fmaxS 10 11 12) ∧
    decode resetConfig (.word 0x00000073#32) = some .ecall ∧
    decode resetConfig (.half 0x9002#16) = some .cEbreak ∧
    decode resetConfig (.half 0x0001#16) = some (.cNop 0) ∧
    decode resetConfig (.half 0x0000#16) = none ∧
    decode resetConfig (.word 0xFFFFFFFF#32) = none

/-! ### The step -/

/-- Where the fetched code decodes to an instruction, the step is that instruction's execution followed by the passing of
time: `cycle` and `time` advance by free amounts and never decrease, the hpm counters advance by free amounts, the free
values are drawn anew, and nothing else changes (R193, R194, R499, R501, R502). How much a counter advances is free, and
a clock stays at its greatest value rather than wrap: the model's choice (log 10). -/
def Obligations.StepRunsDecoded : Prop :=
  ∀ (s : State) (code : Code) (i : Instr), s.status = .running → configLegal s.cfg = true → pcAligned s = true →
    s.fetch = .ok code → decode s.cfg code = some i →
      ∃ t, exec i s = .next t ∧ step s = .next t.tick ∧ t.cycle ≤ t.tick.cycle ∧ t.time ≤ t.tick.time ∧
        t.tick = { t with
          cycle := BitVec.ofNat 64 (min (t.cycle.toNat + Config.cycleAdvance t.draw) (2 ^ 64 - 1))
          time := BitVec.ofNat 64 (min (t.time.toNat + Config.timeAdvance t.draw) (2 ^ 64 - 1))
          hpm := Vector.ofFn fun k => t.hpm[k] + BitVec.ofNat 64 (Config.hpmAdvance t.draw k.val)
          draws := t.draws + 1 }

/-- From every state every instruction answers a next state: it takes the exception its checks name, or it raises none,
completes and is counted, and the hart goes on running (R500, R801, R806, R834). That a trap has no other effect and is not
counted is this spec's choice (D35, D16; logs 17, 19). -/
def Obligations.EveryInstructionAnswersNext : Prop :=
  ∀ (i : Instr) (s : State),
    (∀ c, trapOf i s = some c → exec i s = .next (s.takeTrap c)) ∧
      (trapOf i s = none → ∃ t, exec i s = .next t ∧ t.status = s.status ∧ t.instret = s.instret + 1)

/-- Where no fetched byte has been overwritten since the last FENCE.I and the parcels are fetchable main memory, the fetch
gives the bytes of memory: a 16-bit code where C is present and bits 1:0 of the first parcel are not 11, and then the second
parcel need not be fetchable; else a 32-bit code, the first parcel lowest, each parcel little-endian whatever the data byte
order (R90, R190, R193). That a first parcel with bits 4:0 = 11111, for which the pseudocode of R193 raises
illegal-instruction at once, has its second parcel fetched too and gives a 32-bit code is the choice of D27 and log 15. -/
def Obligations.FetchReadsParcels : Prop :=
  ∀ s : State,
    let plain (k : Nat) : Prop := fetchable s.cfg (byteAddr s.xlen s.pc k) = true ∧
      isIo s.cfg (byteAddr s.xlen s.pc k) = false ∧ heldBytes s.stale (byteAddr s.xlen s.pc k) = []
    let b (k : Nat) : Nat := (readByte s.mem (byteAddr s.xlen s.pc k)).toNat
    let short : Prop := s.cfg.ext.c = true ∧ b 0 % 4 ≠ 3
    plain 0 → plain 1 →
      (short → s.fetch = .ok (.half (BitVec.ofNat 16 (b 0 + 256 * b 1)))) ∧
      (¬ short → plain 2 → plain 3 →
        s.fetch = .ok (.word (BitVec.ofNat 32 (b 0 + 256 * b 1 + 65536 * b 2 + 16777216 * b 3))))

/-- A parcel that cannot be fetched raises the instruction access-fault with that parcel's address: the first parcel with
the pc, the second, where the first calls for one, with pc + 2 (R815, R825). Which exception it is, and the address it
reports, are this spec's choice (D22, log 17). That a first parcel with bits 4:0 = 11111, for which the pseudocode of R193
raises illegal-instruction at once, calls for a second one is the choice of D27 and log 15. -/
def Obligations.FetchAccessFaults : Prop :=
  ∀ s : State, s.status = .running → configLegal s.cfg = true → pcAligned s = true →
    let whole (a : Word) : Prop := fetchable s.cfg (byteAddr s.xlen a 0) = true ∧ fetchable s.cfg (byteAddr s.xlen a 1) = true
    (¬ whole s.pc → step s = .next (s.takeTrap (.instructionAccessFault s.pc)).tick) ∧
      (whole s.pc → ¬ (s.cfg.ext.c = true ∧ (s.fetchByte (byteAddr s.xlen s.pc 0)).toNat % 4 ≠ 3) →
        ¬ whole (lowBits s.xlen (s.pc + 2)) →
          step s = .next (s.takeTrap (.instructionAccessFault (lowBits s.xlen (s.pc + 2)))).tick)

/-- A fetched code that no row of the table has takes the illegal-instruction exception with its bits; the source leaves what
such a code does unspecified, and the exception, with the bits of two parcels where the first begins a longer code, is this
spec's choice (R228, R812, D11, D27, log 15). In every configuration the
codes whose 16 low bits are zero and 32 ones are such codes (R192). -/
def Obligations.UndecodableTakesIllegal : Prop :=
  (∀ (s : State) (code : Code), s.status = .running → configLegal s.cfg = true → pcAligned s = true →
    s.fetch = .ok code → decode s.cfg code = none → step s = .next (s.takeTrap (.illegalInstruction code)).tick) ∧
  ∀ (c : Config) (p : BitVec 16), decode c (.half 0#16) = none ∧ decode c (.word (p ++ 0#16)) = none ∧
    decode c (.word 0xFFFFFFFF#32) = none

/-- An instruction word placed at the pc is what the next fetch gives, its low parcel alone where that is a 16-bit
instruction, and then only that parcel need be fetchable (R90, R193; the placing stands for the load of a program, log 14).
That a word with bits 4:0 = 11111, for which the pseudocode of R193 raises illegal-instruction at its first parcel, is fetched
as a 32-bit code is the choice of D27 and log 15. -/
def Obligations.PlacedWordIsFetched : Prop :=
  ∀ (s : State) (nbits w : Nat), nbits ≤ 32 → w < 2 ^ nbits →
    let plain (k : Nat) : Prop := fetchable s.cfg (byteAddr s.xlen s.pc k) = true ∧ isIo s.cfg (byteAddr s.xlen s.pc k) = false
    let short : Prop := s.cfg.ext.c = true ∧ w % 4 ≠ 3
    plain 0 → plain 1 →
      (short → (s.withFetchWord nbits w).fetch = .ok (.half (BitVec.ofNat 16 w))) ∧
      (¬ short → plain 2 → plain 3 → (s.withFetchWord nbits w).fetch = .ok (.word (BitVec.ofNat 32 w)))

/-! ### Invariants and reset -/

/-- Every step keeps the invariant: the configuration stays admitted, registers keep their widths, the pc stays aligned
to IALIGN, fcsr[31:8] stays 0, memory stays canonical and in the address space, and a reservation holds the bytes its LR
read (R30, R37, R43, R50, R80, R438). -/
def Obligations.InvariantKept : Prop :=
  ∀ s t : State, s.Inv → step s = .next t → t.Inv

/-- The state after reset has the invariant. -/
def Obligations.ResetInvariant : Prop := State.reset.Inv

/-- After reset x0 reads 0 and fcsr[31:8] is 0, as the source says; every register and every counter, the hpm counters too, is
0, memory reads 0, no reservation is held and the fetch view equals memory, which are the model's choices (R75, R862, log 4,
log 5). -/
def Obligations.ResetValues : Prop :=
  State.reset.rx 0 = 0 ∧ State.reset.fcsr.toNat / 256 = 0 ∧ State.reset.status = .running ∧
    (∀ r, State.reset.rx r = 0) ∧ (∀ i : Fin 32, State.reset.f[i] = 0) ∧ State.reset.pc = 0 ∧
    State.reset.fcsr = 0 ∧ State.reset.reservation = none ∧ State.reset.stale = [] ∧
    (∀ a, readByte State.reset.mem a = 0) ∧ State.reset.cycle = 0 ∧ State.reset.time = 0 ∧ State.reset.instret = 0 ∧
    ∀ k : Fin 29, State.reset.hpm[k] = 0

/-- No step changes the configuration (D1 to D29: every parameter is fixed for a run) or which hart it is, and none makes
`cycle` or `time` less (R501, D16); that neither wraps is the model's choice (log 10). -/
def Obligations.ConfigurationFixedClocksNeverDecrease : Prop :=
  ∀ s t : State, step s = .next t → t.cfg = s.cfg ∧ t.hart = s.hart ∧ s.cycle ≤ t.cycle ∧ s.time ≤ t.time

/-- A step ends a running machine only by a trap that the environment chose to be fatal: a fetch that faults, a code that is
no instruction, or an instruction that raises; the report is the environment's and a terminated machine takes no step (R805,
R827, R834). -/
def Obligations.OnlyTrapsTerminate : Prop :=
  (∀ (s t : State), step s = .next t → t.status ≠ .running →
    ∃ c r, environmentAnswer s (s.trapRecord c) = .terminate r ∧ t = (s.takeTrap c).tick ∧ t.status = .terminated r ∧
      (s.fetch = .error c ∨ ∃ code, s.fetch = .ok code ∧
        ((decode s.cfg code = none ∧ c = .illegalInstruction code) ∨
          ∃ i, decode s.cfg code = some i ∧ trapOf i s = some c))) ∧
  (∀ (i : Instr) (s t : State), s.status = .running → exec i s = .next t → t.status ≠ .running →
    ∃ c r, t = s.takeTrap c ∧ environmentAnswer s (s.trapRecord c) = .terminate r ∧ t.status = .terminated r) ∧
  ∀ (s : State) (r : Report), s.status = .terminated r → step s = .fault .terminated

/-! ### Registers -/

/-- Register x0 reads 0 in every state and a write to it changes nothing; any other register reads back the low XLEN bits
written and no other register changes (R30, R31). -/
def Obligations.RegisterZeroIsHardwired : Prop :=
  ∀ (s : State) (r q : RegNum) (v : Word), s.rx 0 = 0 ∧ s.wx 0 v = s ∧
    (r ≠ 0 → ((s.wx r v).rx r).toNat = v.toNat % 2 ^ s.xlen.bits) ∧ (q ≠ r → (s.wx r v).rx q = s.rx q)

/-- A write to fcsr, frm or fflags leaves fcsr[31:8] at 0 and keeps v[7:0], v[2:0] or v[4:0] of the value written, whatever
its other bits; fcsr reads with zeros above bit 7, frm as its bits 7:5 and fflags as its bits 4:0 (R43, R44). -/
def Obligations.FcsrReservedBits : Prop :=
  ∀ (s : State) (v : Word), (s.csrWrite .fcsr v).fcsr.toNat = v.toNat % 256 ∧
    (s.csrWrite .frm v).fcsr.toNat = v.toNat % 8 * 32 + s.fflags.toNat ∧
    (s.csrWrite .fflags v).fcsr.toNat = s.frm.toNat * 32 + v.toNat % 32 ∧
    (s.csrRead .fcsr).toNat = s.fcsr.toNat % 256 ∧ (s.csrRead .frm).toNat = s.fcsr.toNat / 32 % 8 ∧
    (s.csrRead .fflags).toNat = s.fcsr.toNat % 32 ∧ s.frm.toNat = s.fcsr.toNat / 32 % 8 ∧
    s.fflags.toNat = s.fcsr.toNat % 32

/-- An n-bit result is boxed: the register holds it below ones up to FLEN, an operand read of its width gives it back, and
a read as any wider format that fits gives a negative quiet NaN (R53). Whatever a register holds, a read of an n-bit operand
gives the n-bit canonical NaN where a bit above the n, below FLEN, is not 1, and the low n bits otherwise (R52, R533). -/
def Obligations.BoxingRoundTrip : Prop :=
  (∀ (s : State) (t u : Fmt) (r : RegNum) (v : Nat), v < 2 ^ t.width → t.width ≤ s.flen →
    (((s.fwrite t r v).f[r.toNat]'r.isLt).toNat =
        if t.width = s.flen then v else (2 ^ (s.flen - t.width) - 1) * 2 ^ t.width + v) ∧
      (s.fwrite t r v).fread t r = v ∧
      (t.width < u.width → u.width ≤ s.flen →
        decodeFp u ((s.fwrite t r v).fread u r) = .nan false ∧ signOf u ((s.fwrite t r v).fread u r) = true)) ∧
  ∀ (s : State) (t : Fmt) (r : RegNum),
    let bits : BitVec 128 := s.f[r.toNat]'r.isLt
    let canonical : Nat := match t with
      | .s => 0x7FC00000
      | .d => 0x7FF8000000000000
      | .q => 0x7FFF8000000000000000000000000000
    ((∃ k, t.width ≤ k ∧ k < s.flen ∧ bits.getLsbD k = false) → s.fread t r = canonical) ∧
      ((∀ k, t.width ≤ k → k < s.flen → bits.getLsbD k = true) → s.fread t r = bits.toNat % 2 ^ s.flen % 2 ^ t.width)

/-! ### Traps -/

/-- A raised exception hands the environment the record of hart, cause and pc. Where the policy for the cause is to
terminate, the machine stops with that record and every other part of the state is as the instruction found it: that traps
are precise is this spec's choice (D35, D16, D15; logs 17, 19, 22). Where the policy is to ask, the environment's answer
decides. Where it resumes, the hart goes on as the answer says: the pc cut to XLEN bits and aligned to IALIGN, the registers
cut to their widths, fcsr[31:8] 0, each byte it stored in main memory, the device accesses it made, the instructions it let
retire, the reservation kept or gone, and the fetch view brought up to date or grown by what was overwritten; nothing else
changes (R805, R806, R810, R827, log 2). -/
def Obligations.TrapEntryAndReturn : Prop :=
  (∀ (s : State) (c : Cause),
    let record : TrapRecord := ⟨s.hart, c, s.pc⟩
    let policy : EnvPolicy := match c with
      | .environmentCall => s.cfg.envCall
      | .breakpoint => s.cfg.envBreak
      | _ => s.cfg.envTrap
    let asked : EnvResult := match c with
      | .environmentCall => Config.onCall record s
      | .breakpoint => Config.onBreak record s
      | _ => Config.onTrap record s
    (policy = .terminate → s.takeTrap c = { s with status := .terminated (.record record) }) ∧
      (policy = .environment → s.takeTrap c = match asked with
        | .terminate r => { s with status := .terminated r }
        | .resume e => s.resume e)) ∧
  ∀ (s : State) (e : EnvEffect),
    let t := s.resume e
    let stored (a : Nat) : Option (Nat × Byte) := e.stores.reverse.find? fun c => c.1 % 2 ^ s.xlen.bits == a
    t.pc.toNat = (e.pc.toNat % 2 ^ s.xlen.bits) / ialignBytes s.cfg * ialignBytes s.cfg ∧
    (∀ r : RegNum, r ≠ 0 → (t.rx r).toNat = (e.x[r.toNat]'r.isLt).toNat % 2 ^ s.xlen.bits) ∧
    (∀ r : Fin 32, t.f[r].toNat = e.f[r].toNat % 2 ^ s.flen) ∧
    t.fcsr.toNat = e.fcsr.toNat % 256 ∧
    (∀ a, readByte t.mem a = if isIo s.cfg a then readByte s.mem a else
      match stored a with
      | some c => c.2
      | none => readByte s.mem a) ∧
    t.io = e.events ++ s.io ∧
    t.instret = s.instret + BitVec.ofNat 64 e.retired ∧
    t.reservation = (if e.keepReservation then s.reservation else none) ∧
    (e.syncFetch = true → t.stale = []) ∧
    (e.syncFetch = false → ∀ a b,
      (b = readByte s.mem a ∨ b ∈ heldBytes s.stale a → b = readByte t.mem a ∨ b ∈ heldBytes t.stale a) ∧
      (b ∈ heldBytes t.stale a → b = readByte s.mem a ∨ b ∈ heldBytes s.stale a ∨
        ∃ c ∈ e.stores, c.1 % 2 ^ s.xlen.bits = a ∧ c.2 = b)) ∧
    t.cfg = s.cfg ∧ t.status = s.status ∧ t.cycle = s.cycle ∧ t.time = s.time ∧ t.hpm = s.hpm ∧ t.draws = s.draws ∧
    t.hart = s.hart

/-- ECALL and EBREAK always take their exception, at the pc of the instruction (R330, R331, R813, R814). Under the default
environment the machine stops with the record and nothing else changes. This spec's choices: the default and the record as
the report (D6, D12, log 3), and that nothing else changes, `instret` included (D16, D35; logs 17, 19). -/
def Obligations.EnvironmentCallAndBreakpoint : Prop :=
  ∀ s : State, TakesTrap .ecall s .environmentCall ∧ TakesTrap .ebreak s .breakpoint ∧ TakesTrap .cEbreak s .breakpoint ∧
    (s.cfg.envCall = .terminate →
      exec .ecall s = .next { s with status := .terminated (.record ⟨s.hart, .environmentCall, s.pc⟩) }) ∧
    (s.cfg.envBreak = .terminate →
      exec .ebreak s = .next { s with status := .terminated (.record ⟨s.hart, .breakpoint, s.pc⟩) } ∧
        exec .cEbreak s = .next { s with status := .terminated (.record ⟨s.hart, .breakpoint, s.pc⟩) })

/-! ### RV32I and RV64I computation -/

/-- ADDI, SLTI, SLTIU, ANDI, ORI, XORI: the result and the frame (R251 to R256). -/
def Obligations.ImmediateArithmetic : Prop :=
  ∀ (s : State) (rd rs1 : RegNum) (imm : BitVec 12),
    Completes (.addi rd rs1 imm) s (fun t => XResult s t 4 rd (s.uval rs1 + imm.toInt)) ∧
    Completes (.slti rd rs1 imm) s (fun t => XResult s t 4 rd (if s.sval rs1 < imm.toInt then 1 else 0)) ∧
    Completes (.sltiu rd rs1 imm) s (fun t => XResult s t 4 rd (if s.uval rs1 < s.target imm.toInt then 1 else 0)) ∧
    Completes (.andi rd rs1 imm) s (fun t => XResult s t 4 rd ((s.rx rs1).toNat &&& s.target imm.toInt : Nat)) ∧
    Completes (.ori rd rs1 imm) s (fun t => XResult s t 4 rd ((s.rx rs1).toNat ||| s.target imm.toInt : Nat)) ∧
    Completes (.xori rd rs1 imm) s (fun t => XResult s t 4 rd ((s.rx rs1).toNat ^^^ s.target imm.toInt : Nat))

/-- ADD, SUB, SLT, SLTU, AND, OR, XOR (R262 to R268). -/
def Obligations.RegisterArithmetic : Prop :=
  ∀ (s : State) (rd rs1 rs2 : RegNum),
    Completes (.add rd rs1 rs2) s (fun t => XResult s t 4 rd (s.uval rs1 + s.uval rs2)) ∧
    Completes (.sub rd rs1 rs2) s (fun t => XResult s t 4 rd (s.uval rs1 - s.uval rs2)) ∧
    Completes (.slt rd rs1 rs2) s (fun t => XResult s t 4 rd (if s.sval rs1 < s.sval rs2 then 1 else 0)) ∧
    Completes (.sltu rd rs1 rs2) s (fun t => XResult s t 4 rd (if s.uval rs1 < s.uval rs2 then 1 else 0)) ∧
    Completes (.and rd rs1 rs2) s (fun t => XResult s t 4 rd ((s.rx rs1).toNat &&& (s.rx rs2).toNat : Nat)) ∧
    Completes (.or rd rs1 rs2) s (fun t => XResult s t 4 rd ((s.rx rs1).toNat ||| (s.rx rs2).toNat : Nat)) ∧
    Completes (.xor rd rs1 rs2) s (fun t => XResult s t 4 rd ((s.rx rs1).toNat ^^^ (s.rx rs2).toNat : Nat))

/-- Shifts by an immediate and by rs2 modulo XLEN: multiplication by, and the floor of division by, a power of two (R257 to
R259, R269 to R271, R362 to R364, R375). -/
def Obligations.Shifts : Prop :=
  ∀ (s : State) (rd rs1 rs2 : RegNum) (shamt : BitVec 6),
    let n := (s.rx rs2).toNat % s.xlen.bits
    Completes (.slli rd rs1 shamt) s (fun t => XResult s t 4 rd (s.uval rs1 * 2 ^ shamt.toNat)) ∧
    Completes (.srli rd rs1 shamt) s (fun t => XResult s t 4 rd (s.uval rs1 / 2 ^ shamt.toNat)) ∧
    Completes (.srai rd rs1 shamt) s (fun t => XResult s t 4 rd (s.sval rs1 / 2 ^ shamt.toNat)) ∧
    Completes (.sll rd rs1 rs2) s (fun t => XResult s t 4 rd (s.uval rs1 * 2 ^ n)) ∧
    Completes (.srl rd rs1 rs2) s (fun t => XResult s t 4 rd (s.uval rs1 / 2 ^ n)) ∧
    Completes (.sra rd rs1 rs2) s (fun t => XResult s t 4 rd (s.sval rs1 / 2 ^ n))

/-- LUI and AUIPC: the immediate times 4096, sign-extended from bit 31 where XLEN is 64 (R260, R261, R368). -/
def Obligations.UpperImmediates : Prop :=
  ∀ (s : State) (rd : RegNum) (imm : BitVec 20),
    Completes (.lui rd imm) s (fun t => XResult s t 4 rd (imm.toInt * 4096)) ∧
    Completes (.auipc rd imm) s (fun t => XResult s t 4 rd (s.pc.toNat + imm.toInt * 4096))

/-- The W instructions: 32-bit results, sign-extended, whatever the upper halves of the operands (R360, R361, R365 to R367,
R370 to R374). -/
def Obligations.WordArithmetic : Prop :=
  ∀ (s : State) (rd rs1 rs2 : RegNum) (imm : BitVec 12) (shamt : BitVec 5),
    let n := (s.rx rs2).toNat % 32
    Completes (.addiw rd rs1 imm) s (fun t => XResult s t 4 rd ((s.uval rs1 + imm.toInt).bmod (2 ^ 32))) ∧
    Completes (.slliw rd rs1 shamt) s (fun t => XResult s t 4 rd ((s.uval32 rs1 * 2 ^ shamt.toNat).bmod (2 ^ 32))) ∧
    Completes (.srliw rd rs1 shamt) s (fun t => XResult s t 4 rd ((s.uval32 rs1 / 2 ^ shamt.toNat).bmod (2 ^ 32))) ∧
    Completes (.sraiw rd rs1 shamt) s (fun t => XResult s t 4 rd (s.sval32 rs1 / 2 ^ shamt.toNat)) ∧
    Completes (.addw rd rs1 rs2) s (fun t => XResult s t 4 rd ((s.uval rs1 + s.uval rs2).bmod (2 ^ 32))) ∧
    Completes (.subw rd rs1 rs2) s (fun t => XResult s t 4 rd ((s.uval rs1 - s.uval rs2).bmod (2 ^ 32))) ∧
    Completes (.sllw rd rs1 rs2) s (fun t => XResult s t 4 rd ((s.uval32 rs1 * 2 ^ n).bmod (2 ^ 32))) ∧
    Completes (.srlw rd rs1 rs2) s (fun t => XResult s t 4 rd ((s.uval32 rs1 / 2 ^ n).bmod (2 ^ 32))) ∧
    Completes (.sraw rd rs1 rs2) s (fun t => XResult s t 4 rd (s.sval32 rs1 / 2 ^ n))

/-! ### M -/

/-- MUL, MULH, MULHSU, MULHU: the low and the high XLEN bits of the exact product (R401 to R404). -/
def Obligations.Multiplication : Prop :=
  ∀ (s : State) (rd rs1 rs2 : RegNum),
    Completes (.mul rd rs1 rs2) s (fun t => XResult s t 4 rd (s.uval rs1 * s.uval rs2)) ∧
    Completes (.mulh rd rs1 rs2) s (fun t => XResult s t 4 rd (s.sval rs1 * s.sval rs2 / 2 ^ s.xlen.bits)) ∧
    Completes (.mulhsu rd rs1 rs2) s (fun t => XResult s t 4 rd (s.sval rs1 * s.uval rs2 / 2 ^ s.xlen.bits)) ∧
    Completes (.mulhu rd rs1 rs2) s (fun t => XResult s t 4 rd (s.uval rs1 * s.uval rs2 / 2 ^ s.xlen.bits))

/-- DIV, DIVU, REM, REMU: division rounded towards zero, with the defined values for a zero divisor (R405 to R408). -/
def Obligations.Division : Prop :=
  ∀ (s : State) (rd rs1 rs2 : RegNum),
    Completes (.div rd rs1 rs2) s
      (fun t => XResult s t 4 rd (if s.sval rs2 = 0 then -1 else (s.sval rs1).tdiv (s.sval rs2))) ∧
    Completes (.divu rd rs1 rs2) s
      (fun t => XResult s t 4 rd (if s.uval rs2 = 0 then 2 ^ s.xlen.bits - 1 else s.uval rs1 / s.uval rs2)) ∧
    Completes (.rem rd rs1 rs2) s
      (fun t => XResult s t 4 rd (if s.sval rs2 = 0 then s.sval rs1 else (s.sval rs1).tmod (s.sval rs2))) ∧
    Completes (.remu rd rs1 rs2) s
      (fun t => XResult s t 4 rd (if s.uval rs2 = 0 then s.uval rs1 else s.uval rs1 % s.uval rs2))

/-- MULW, DIVW, DIVUW, REMW, REMUW: the same on the low 32 bits, sign-extended (R409 to R413). -/
def Obligations.WordMultiplyDivide : Prop :=
  ∀ (s : State) (rd rs1 rs2 : RegNum),
    Completes (.mulw rd rs1 rs2) s (fun t => XResult s t 4 rd ((s.uval32 rs1 * s.uval32 rs2).bmod (2 ^ 32))) ∧
    Completes (.divw rd rs1 rs2) s (fun t => XResult s t 4 rd
      (if s.sval32 rs2 = 0 then -1 else ((s.sval32 rs1).tdiv (s.sval32 rs2)).bmod (2 ^ 32))) ∧
    Completes (.divuw rd rs1 rs2) s (fun t => XResult s t 4 rd
      ((if s.uval32 rs2 = 0 then 2 ^ 32 - 1 else s.uval32 rs1 / s.uval32 rs2 : Int).bmod (2 ^ 32))) ∧
    Completes (.remw rd rs1 rs2) s (fun t => XResult s t 4 rd
      (if s.sval32 rs2 = 0 then s.sval32 rs1 else (s.sval32 rs1).tmod (s.sval32 rs2))) ∧
    Completes (.remuw rd rs1 rs2) s (fun t => XResult s t 4 rd
      ((if s.uval32 rs2 = 0 then s.uval32 rs1 else s.uval32 rs1 % s.uval32 rs2 : Int).bmod (2 ^ 32)))

/-- Table 7.1: by zero the quotient has all bits set and the remainder is the dividend; the most negative number by -1 has
quotient the dividend and remainder 0; W forms likewise on 32 bits, sign-extended; a signed quotient is out of range for
those operands only, an unsigned one never (R414). -/
def Obligations.DivisionByZeroAndOverflow : Prop :=
  ∀ (s : State) (rd rs1 rs2 : RegNum),
    (s.uval rs2 = 0 →
      Completes (.div rd rs1 rs2) s (fun t => HoldsX s t rd (-1)) ∧
      Completes (.divu rd rs1 rs2) s (fun t => HoldsX s t rd (2 ^ s.xlen.bits - 1)) ∧
      Completes (.rem rd rs1 rs2) s (fun t => HoldsX s t rd (s.uval rs1)) ∧
      Completes (.remu rd rs1 rs2) s (fun t => HoldsX s t rd (s.uval rs1))) ∧
    (s.uval32 rs2 = 0 →
      Completes (.divw rd rs1 rs2) s (fun t => HoldsX s t rd (-1)) ∧
      Completes (.divuw rd rs1 rs2) s (fun t => HoldsX s t rd ((2 ^ 32 - 1 : Int).bmod (2 ^ 32))) ∧
      Completes (.remw rd rs1 rs2) s (fun t => HoldsX s t rd (s.sval32 rs1)) ∧
      Completes (.remuw rd rs1 rs2) s (fun t => HoldsX s t rd (s.sval32 rs1))) ∧
    (s.sval rs1 = -2 ^ (s.xlen.bits - 1) → s.sval rs2 = -1 →
      Completes (.div rd rs1 rs2) s (fun t => HoldsX s t rd (s.sval rs1)) ∧
      Completes (.rem rd rs1 rs2) s (fun t => HoldsX s t rd 0)) ∧
    (s.sval32 rs1 = -2 ^ 31 → s.sval32 rs2 = -1 →
      Completes (.divw rd rs1 rs2) s (fun t => HoldsX s t rd (s.sval32 rs1)) ∧
      Completes (.remw rd rs1 rs2) s (fun t => HoldsX s t rd 0)) ∧
    (s.sval rs2 ≠ 0 → (let q := (s.sval rs1).tdiv (s.sval rs2); q < -2 ^ (s.xlen.bits - 1) ∨ 2 ^ (s.xlen.bits - 1) ≤ q) →
      s.sval rs1 = -2 ^ (s.xlen.bits - 1) ∧ s.sval rs2 = -1) ∧
    (s.sval32 rs2 ≠ 0 → (let q := (s.sval32 rs1).tdiv (s.sval32 rs2); q < -2 ^ 31 ∨ 2 ^ 31 ≤ q) →
      s.sval32 rs1 = -2 ^ 31 ∧ s.sval32 rs2 = -1) ∧
    (s.uval rs2 ≠ 0 → s.uval rs1 / s.uval rs2 < 2 ^ s.xlen.bits) ∧
    (s.uval32 rs2 ≠ 0 → s.uval32 rs1 / s.uval32 rs2 < 2 ^ 32)

/-- Dividend = divisor x quotient + remainder, of signed and of unsigned division and of the W forms: exactly, but for the one
signed overflow, and modulo 2 ^ XLEN always. Where the divisor is not zero the remainder is less than it in magnitude, and a
signed one has the sign of the dividend or is zero (R405 to R408, R410 to R413). -/
def Obligations.QuotientAndRemainder : Prop :=
  ∀ (s : State) (rd rs1 rs2 : RegNum) (q r : State), rd ≠ 0 →
    let signed (n : Nat) (a b q r : Int) : Prop :=
      (¬ (a = -2 ^ (n - 1) ∧ b = -1) → a = b * q + r) ∧ (b * q + r - a) % 2 ^ n = 0 ∧
        (b ≠ 0 → |r| < |b| ∧ (r = 0 ∨ (0 < r ↔ 0 < a)))
    let unsigned (a b q r : Int) : Prop := a = b * q + r ∧ (b ≠ 0 → 0 ≤ r ∧ r < b)
    (exec (.div rd rs1 rs2) s = .next q → exec (.rem rd rs1 rs2) s = .next r →
      signed s.xlen.bits (s.sval rs1) (s.sval rs2) (q.sval rd) (r.sval rd)) ∧
    (exec (.divu rd rs1 rs2) s = .next q → exec (.remu rd rs1 rs2) s = .next r →
      unsigned (s.uval rs1) (s.uval rs2) (q.uval rd) (r.uval rd)) ∧
    (exec (.divw rd rs1 rs2) s = .next q → exec (.remw rd rs1 rs2) s = .next r →
      signed 32 (s.sval32 rs1) (s.sval32 rs2) (q.sval rd) (r.sval rd)) ∧
    (exec (.divuw rd rs1 rs2) s = .next q → exec (.remuw rd rs1 rs2) s = .next r →
      unsigned (s.uval32 rs1) (s.uval32 rs2) (q.uval32 rd) (r.uval32 rd))

/-! ### Control transfer -/

/-- JAL and JALR: rd receives the address after the instruction and the pc the target, JALR's with bit 0 cleared; where
IALIGN is 32 a target off a four-byte boundary traps instead (R280, R282, R811). -/
def Obligations.Jumps : Prop :=
  ∀ (s : State) (rd rs1 : RegNum) (off : BitVec 20) (imm : BitVec 12),
    JumpAnswer (.jal rd off) s 4 rd (s.target (s.pc.toNat + 2 * off.toInt)) ∧
    JumpAnswer (.jalr rd rs1 imm) s 4 rd (s.target (s.uval rs1 + imm.toInt) / 2 * 2)

/-- The six conditional branches: only a taken one transfers control or traps (R285 to R291, R811). -/
def Obligations.Branches : Prop :=
  ∀ (s : State) (rs1 rs2 : RegNum) (imm : BitVec 12),
    let target := s.target (s.pc.toNat + 2 * imm.toInt)
    BranchAnswer (.beq rs1 rs2 imm) s 4 (s.uval rs1 = s.uval rs2) target ∧
    BranchAnswer (.bne rs1 rs2 imm) s 4 (s.uval rs1 ≠ s.uval rs2) target ∧
    BranchAnswer (.blt rs1 rs2 imm) s 4 (s.sval rs1 < s.sval rs2) target ∧
    BranchAnswer (.bge rs1 rs2 imm) s 4 (s.sval rs2 ≤ s.sval rs1) target ∧
    BranchAnswer (.bltu rs1 rs2 imm) s 4 (s.uval rs1 < s.uval rs2) target ∧
    BranchAnswer (.bgeu rs1 rs2 imm) s 4 (s.uval rs2 ≤ s.uval rs1) target

/-! ### Memory -/

/-- The checks of an access in their order: alignment first, then that every byte is accessible for this access and width
(R96, R99, R100, R433, R470). The `trap` policy raises address-misaligned, `supported` never does, `either` may; an LR or
SC, and an AMO without Zam, never passes misaligned. An access-fault may stand for a misalignment only where some byte lies in
a range where misaligned accesses may not be emulated (R109). This spec's choices: the order of the two checks (D23), which
exception a misaligned atomic raises (D15, log 16), and the access-fault kind of an AMO (D22, log 17); the regions' attribute
for emulation is the model's (log 32), and so is that a misaligned access is checked with its whole width where R305 checks
each component (log 16). -/
def Obligations.AccessCheckOrder : Prop :=
  ∀ (s : State) (k : Access) (n : Nat) (a : Word),
    let byteRegion (i : Nat) : Option Region := regionAt s.cfg ((a.toNat + i) % 2 ^ s.xlen.bits)
    let reachable : Prop := ∀ i, i < n → ∃ r, byteRegion i = some r ∧ regionAllows k n r = true
    let emulable : Prop := ∀ i, i < n → ∃ r, byteRegion i = some r ∧ r.emulable = true
    let reads : Prop := k = .load ∨ k = .lr
    let misaligned : Cause → Prop := fun c =>
      (reads → c = .loadAddressMisaligned a) ∧ (¬ reads → c = .storeAMOAddressMisaligned a)
    let fault : Cause → Prop := fun c => (reads → c = .loadAccessFault a) ∧ (¬ reads → c = .storeAMOAccessFault a)
    let plain : Prop := k = .load ∨ k = .store
    let amo : Prop := ∃ op, k = .amo op
    let ordinary : Prop := (reachable → accessCheck s k n a = none) ∧ (¬ reachable → ∃ c, accessCheck s k n a = some c ∧ fault c)
    (a.toNat % n = 0 → ordinary) ∧
      (a.toNat % n ≠ 0 → plain → s.cfg.misaligned = .supported → ordinary) ∧
      (a.toNat % n ≠ 0 → plain → s.cfg.misaligned = .trap → ∃ c, accessCheck s k n a = some c ∧ misaligned c) ∧
      (a.toNat % n ≠ 0 → plain → s.cfg.misaligned = .either →
        ordinary ∨ ∃ c, accessCheck s k n a = some c ∧ (misaligned c ∨ (fault c ∧ ¬ emulable))) ∧
      (a.toNat % n ≠ 0 → amo → s.cfg.ext.zam = true → ordinary) ∧
      (a.toNat % n ≠ 0 → ¬ plain → ¬ (amo ∧ s.cfg.ext.zam = true) →
        ∃ c, accessCheck s k n a = some c ∧ (misaligned c ∨ (fault c ∧ ¬ emulable)) ∧
          (s.cfg.misalignedAtomic = .addressMisaligned → misaligned c) ∧
          (s.cfg.misalignedAtomic = .accessFault → ¬ emulable → fault c))

/-- The integer loads: the address, the value by the byte order of the configuration, sign- or zero-extended, and the
exceptions (R88, R100, R295 to R301, R376, R377). -/
def Obligations.IntegerLoads : Prop :=
  ∀ (s : State) (rd rs1 : RegNum) (imm : BitVec 12),
    let a := s.address rs1 (immValue imm)
    a.toNat = s.target (s.uval rs1 + imm.toInt) ∧
    AccessAnswer (.lb rd rs1 imm) s .load 1 a (fun t => XLoad s t 4 1 rd a ((s.loadedValue 1 a : Int).bmod (2 ^ 8))) ∧
    AccessAnswer (.lh rd rs1 imm) s .load 2 a (fun t => XLoad s t 4 2 rd a ((s.loadedValue 2 a : Int).bmod (2 ^ 16))) ∧
    AccessAnswer (.lw rd rs1 imm) s .load 4 a (fun t => XLoad s t 4 4 rd a ((s.loadedValue 4 a : Int).bmod (2 ^ 32))) ∧
    AccessAnswer (.ld rd rs1 imm) s .load 8 a (fun t => XLoad s t 4 8 rd a (s.loadedValue 8 a)) ∧
    AccessAnswer (.lbu rd rs1 imm) s .load 1 a (fun t => XLoad s t 4 1 rd a (s.loadedValue 1 a)) ∧
    AccessAnswer (.lhu rd rs1 imm) s .load 2 a (fun t => XLoad s t 4 2 rd a (s.loadedValue 2 a)) ∧
    AccessAnswer (.lwu rd rs1 imm) s .load 4 a (fun t => XLoad s t 4 4 rd a (s.loadedValue 4 a))

/-- A load to x0 makes the same checks and the same access as one to any other register, and discards the value: it traps
where the other traps, and where it completes it differs in that register only (R296). -/
def Obligations.LoadsToRegisterZero : Prop :=
  ∀ (s : State) (rd rs1 : RegNum) (imm : BitVec 12) (load : RegNum → RegNum → BitVec 12 → Instr),
    load ∈ [Instr.lb, .lh, .lw, .ld, .lbu, .lhu, .lwu] →
      ∃ t u, exec (load rd rs1 imm) s = .next t ∧ exec (load 0 rs1 imm) s = .next u ∧
        ((∃ c, t = s.takeTrap c ∧ u = s.takeTrap c) ∨
          (u.io = t.io ∧ u.pc = t.pc ∧ u.instret = t.instret ∧ SameX s u ∧ { u with x := t.x } = t))

/-- The integer stores: the address, the low bytes of rs2 in the byte order of the configuration, every other byte as it
was, and the exceptions (R88, R100, R302 to R304, R378). -/
def Obligations.IntegerStores : Prop :=
  ∀ (s : State) (rs2 rs1 : RegNum) (imm : BitVec 12),
    let a := s.address rs1 (immValue imm)
    let v := (s.rx rs2).toNat
    a.toNat = s.target (s.uval rs1 + imm.toInt) ∧
    AccessAnswer (.sb rs2 rs1 imm) s .store 1 a (fun t => StoreDone s t 4 1 a (v % 2 ^ 8)) ∧
    AccessAnswer (.sh rs2 rs1 imm) s .store 2 a (fun t => StoreDone s t 4 2 a (v % 2 ^ 16)) ∧
    AccessAnswer (.sw rs2 rs1 imm) s .store 4 a (fun t => StoreDone s t 4 4 a (v % 2 ^ 32)) ∧
    AccessAnswer (.sd rs2 rs1 imm) s .store 8 a (fun t => StoreDone s t 4 8 a (v % 2 ^ 64))

/-- In main memory a read after a write of the same bytes gives the value written, and a read of other bytes what it gave
before, in both byte orders and across the end of the address space (R80, R88, R104). -/
def Obligations.MemoryReadAfterWrite : Prop :=
  ∀ (s : State) (n m : Nat) (a b : Word) (v : Nat), 0 < n → n ≤ 16 →
    (∀ i, i < n → isIo s.cfg ((a.toNat + i) % 2 ^ s.xlen.bits) = false) →
      (s.memWrite n a v).memRead n a = v % 256 ^ n ∧
      ((∀ j, j < m → isIo s.cfg ((b.toNat + j) % 2 ^ s.xlen.bits) = false ∧
          ∀ i, i < n → (b.toNat + j) % 2 ^ s.xlen.bits ≠ (a.toNat + i) % 2 ^ s.xlen.bits) →
        (s.memWrite n a v).memRead m b = s.memRead m b)

/-! ### Fences -/

/-- FENCE and FENCE.TSO, whatever their fields, only advance the pc on one hart (R321, R323, R324). -/
def Obligations.FencesOnlyAdvance : Prop :=
  ∀ (s : State) (fm pred succ : BitVec 4) (rs1 rd : RegNum),
    Completes (.fence fm pred succ rs1 rd) s (fun t => OnlyPc s t ∧ Advances s t 4) ∧
    Completes (.fenceTso rs1 rd) s (fun t => OnlyPc s t ∧ Advances s t 4)

/-- The unused fields of FENCE.I, imm, rs1 and rd, are legal and ignored: any values are decoded and execute alike; opcode
MISC-MEM with a funct3 other than 0 and 1 decodes to nothing (R336). -/
def Obligations.FenceIFieldsIgnored : Prop :=
  ∀ (c : Config) (s : State) (rd rs1 : RegNum) (imm : BitVec 12),
    (c.ext.zifencei = true → decode c (encode (.fenceI rd rs1 imm)) = some (.fenceI rd rs1 imm)) ∧
    exec (.fenceI rd rs1 imm) s = exec (.fenceI 0 0 0) s ∧
    ∀ w : BitVec 32, w.extractLsb' 0 7 = 0x0F#7 → w.extractLsb' 12 3 ≠ 0#3 → w.extractLsb' 12 3 ≠ 1#3 →
      decode c (.word w) = none

/-- A stored byte's earlier value stays in the fetch view, and a fetched byte of main memory is the current one or one held
since the last FENCE.I; FENCE.I brings the view up to date, so that each fetched byte is the current one, and changes
nothing else but the pc (R71, R120, R335). Which values a fetch may see is this spec's choice (D21, log 18). -/
def Obligations.FenceISynchronizesFetch : Prop :=
  ∀ (s : State) (rd rs1 : RegNum) (imm : BitVec 12),
    (∀ a b c, c ∈ heldBytes (s.storeByte a b).stale a ↔
      c ∈ heldBytes s.stale a ∨ (c = readByte s.mem a ∧ c ≠ b)) ∧
    (∀ a, isIo s.cfg a = false → s.fetchByte a = readByte s.mem a ∨ s.fetchByte a ∈ heldBytes s.stale a) ∧
    Completes (.fenceI rd rs1 imm) s fun t =>
      (∀ a, isIo s.cfg a = false → t.fetchByte a = readByte s.mem a) ∧ t.stale = [] ∧ t.mem = s.mem ∧ t.io = s.io ∧
        SameX s t ∧ SameF s t ∧ t.fcsr = s.fcsr ∧ t.reservation = s.reservation ∧ Advances s t 4 ∧ SameRest s t

/-! ### A and Zam -/

/-- LR.W and LR.D: a sign-extended load that registers a reservation whose set holds every byte read (R434, R435, R438,
R439). -/
def Obligations.LoadReserved : Prop :=
  ∀ (s : State) (rd rs1 : RegNum) (aq rl : Bool), configLegal s.cfg = true →
    AccessAnswer (.lrW rd rs1 aq rl) s .lr 4 (s.rx rs1) (fun t => LrDone s t 4 rd (s.rx rs1)) ∧
    AccessAnswer (.lrD rd rs1 aq rl) s .lr 8 (s.rx rs1) (fun t => LrDone s t 8 rd (s.rx rs1))

/-- SC.W and SC.D: success stores the low bytes of rs2 and writes 0, failure stores nothing and writes 1; every SC ends the
reservation; it succeeds only where a reservation is held whose set has every byte written (R436, R437, R441). Choices of
this spec: the failure code 1 (R444, D14), and that an SC makes its checks, and traps, whether or not it would succeed (R433,
R436, D15, log 22). Whether an implementation fails an SC besides is free (R443, log 10). -/
def Obligations.StoreConditional : Prop :=
  ∀ (s : State) (rd rs1 rs2 : RegNum) (aq rl : Bool),
    AccessAnswer (.scW rd rs1 rs2 aq rl) s .sc 4 (s.rx rs1) (fun t => ScDone s t 4 rd rs2 (s.rx rs1)) ∧
    AccessAnswer (.scD rd rs1 rs2 aq rl) s .sc 8 (s.rx rs1) (fun t => ScDone s t 8 rd rs2 (s.rx rs1)) ∧
    ∀ n a, scSucceeds s n a = (decide (∃ r ∈ s.reservation, ∀ i, i < n → inSet r.bytes ((a.toNat + i) % 2 ^ s.xlen.bits) = true) &&
      !Config.spuriousFail s.draw)

/-- The nine AMOs on 32-bit words and on 64-bit doublewords: rd receives the old value and memory the result of the operation
(R455 to R464, R471 to R479). That the hart's own reservation stays (D13, log 22) and that a refused read raises the
store/AMO access-fault (D22, log 17) are this spec's choices. -/
def Obligations.AtomicOperations : Prop :=
  ∀ (s : State) (rd rs1 rs2 : RegNum) (aq rl : Bool),
    let a := s.rx rs1
    let old (n : Nat) : Nat := s.loadedValue n a
    let v (n : Nat) : Nat := (s.rx rs2).toNat % 256 ^ n
    let signed (n x : Nat) : Int := (x : Int).bmod (256 ^ n)
    let least (n : Nat) : Nat := if signed n (old n) < signed n (v n) then old n else v n
    let most (n : Nat) : Nat := if signed n (old n) < signed n (v n) then v n else old n
    let amo (i : Instr) (op : AmoOp) (n new : Nat) : Prop := AccessAnswer i s (.amo op) n a fun t => AmoDone s t n rd a new
    (amo (.amoswapW rd rs1 rs2 aq rl) .swap 4 (v 4) ∧ amo (.amoaddW rd rs1 rs2 aq rl) .add 4 ((old 4 + v 4) % 256 ^ 4) ∧
      amo (.amoxorW rd rs1 rs2 aq rl) .xor 4 (old 4 ^^^ v 4) ∧ amo (.amoandW rd rs1 rs2 aq rl) .and 4 (old 4 &&& v 4) ∧
      amo (.amoorW rd rs1 rs2 aq rl) .or 4 (old 4 ||| v 4) ∧ amo (.amominW rd rs1 rs2 aq rl) .min 4 (least 4) ∧
      amo (.amomaxW rd rs1 rs2 aq rl) .max 4 (most 4) ∧ amo (.amominuW rd rs1 rs2 aq rl) .minu 4 (min (old 4) (v 4)) ∧
      amo (.amomaxuW rd rs1 rs2 aq rl) .maxu 4 (max (old 4) (v 4))) ∧
    (amo (.amoswapD rd rs1 rs2 aq rl) .swap 8 (v 8) ∧ amo (.amoaddD rd rs1 rs2 aq rl) .add 8 ((old 8 + v 8) % 256 ^ 8) ∧
      amo (.amoxorD rd rs1 rs2 aq rl) .xor 8 (old 8 ^^^ v 8) ∧ amo (.amoandD rd rs1 rs2 aq rl) .and 8 (old 8 &&& v 8) ∧
      amo (.amoorD rd rs1 rs2 aq rl) .or 8 (old 8 ||| v 8) ∧ amo (.amominD rd rs1 rs2 aq rl) .min 8 (least 8) ∧
      amo (.amomaxD rd rs1 rs2 aq rl) .max 8 (most 8) ∧ amo (.amominuD rd rs1 rs2 aq rl) .minu 8 (min (old 8) (v 8)) ∧
      amo (.amomaxuD rd rs1 rs2 aq rl) .maxu 8 (max (old 8) (v 8)))

/-! ### Zicsr and the counters -/

/-- The six CSR instructions: rd receives the old value, and the CSR the new one where the instruction writes (R482 to R490).
CSRRW and CSRRWI always write; the set and clear forms write only where rs1 is not x0 or the immediate not 0. That a CSR that
does not exist raises illegal-instruction, whatever the operands, is this spec's choice (D17, R492, log 20). -/
def Obligations.CsrInstructions : Prop :=
  ∀ (s : State) (rd rs1 : RegNum) (uimm : BitVec 5) (csr : BitVec 12),
    let x := (s.rx rs1).toNat
    let u := uimm.toNat
    CsrAnswer (.csrrw rd csr rs1) s rd csr (fun _ => some x) ∧
    CsrAnswer (.csrrs rd csr rs1) s rd csr (fun old => if rs1 = 0 then none else some (old ||| x)) ∧
    CsrAnswer (.csrrc rd csr rs1) s rd csr (fun old => if rs1 = 0 then none else some (old ^^^ (old &&& x))) ∧
    CsrAnswer (.csrrwi rd csr uimm) s rd csr (fun _ => some u) ∧
    CsrAnswer (.csrrsi rd csr uimm) s rd csr (fun old => if uimm = 0 then none else some (old ||| u)) ∧
    CsrAnswer (.csrrci rd csr uimm) s rd csr (fun old => if uimm = 0 then none else some (old ^^^ (old &&& u)))

/-- Which CSRs exist (R492): 0x001 to 0x003 with F; with Counters and access to them 0xC00 to 0xC02 and the implemented hpm
counters up to 0xC1F, and at XLEN = 32 their upper halves from 0xC80 on; no other. With F, 0x001 is fflags, 0x002 frm and
0x003 fcsr (R41, R44); what the counters' addresses read, `CountersAreReadOnly` says. That the hpm counters need access to
counters too is the model's choice (log 13). -/
def Obligations.CsrExistence : Prop :=
  ∀ (c : Config) (a : BitVec 12),
    let counters : Prop := c.ext.counters = true ∧ c.countersAccessible = true
    let implemented (base : Nat) : Prop := base ≤ a.toNat ∧ a.toNat < base + 32 ∧
      (a.toNat < base + 3 ∨ c.hpmImplemented.getLsbD (a.toNat - base) = true)
    ((csrAt c a).isSome = true ↔
      (1 ≤ a.toNat ∧ a.toNat ≤ 3 ∧ c.ext.f = true) ∨ (counters ∧ implemented 0xC00) ∨
        (counters ∧ c.xlen = .rv32 ∧ implemented 0xC80)) ∧
    (c.ext.f = true → csrAt c 0x001 = some .fflags ∧ csrAt c 0x002 = some .frm ∧ csrAt c 0x003 = some .fcsr)

/-- The counters are read-only: a CSR instruction that writes one takes the illegal-instruction exception, whatever the value;
RDCYCLE, RDTIME and RDINSTRET read the low XLEN bits, at XLEN = 32 the h forms the high 32, and RDINSTRET does not count
itself (R480, R491, R495 to R498, R500, R505). An implemented hpm counter, of which the spec has none by default (D16), reads its low `hpmWidth` bits in the same two ways
(R47, R502); that one width holds for all of them is the model's choice (log 13). -/
def Obligations.CountersAreReadOnly : Prop :=
  (∀ (s : State) (rd : RegNum), s.cfg.ext.counters = true → s.cfg.countersAccessible = true →
    Completes (.csrrs rd 0xC00 0) s (fun t => XResult s t 4 rd s.cycle.toNat) ∧
    Completes (.csrrs rd 0xC01 0) s (fun t => XResult s t 4 rd s.time.toNat) ∧
    Completes (.csrrs rd 0xC02 0) s (fun t => XResult s t 4 rd s.instret.toNat) ∧
    (s.cfg.xlen = .rv32 →
      Completes (.csrrs rd 0xC80 0) s (fun t => XResult s t 4 rd (s.cycle.toNat / 2 ^ 32 : Nat)) ∧
      Completes (.csrrs rd 0xC81 0) s (fun t => XResult s t 4 rd (s.time.toNat / 2 ^ 32 : Nat)) ∧
      Completes (.csrrs rd 0xC82 0) s (fun t => XResult s t 4 rd (s.instret.toNat / 2 ^ 32 : Nat))) ∧
    ∀ k : Fin 29, s.cfg.hpmImplemented.getLsbD (3 + k.val) = true →
      let v : Nat := s.hpm[k].toNat % 2 ^ s.cfg.hpmWidth
      Completes (.csrrs rd (BitVec.ofNat 12 (0xC03 + k.val)) 0) s (fun t => XResult s t 4 rd v) ∧
        (s.cfg.xlen = .rv32 →
          Completes (.csrrs rd (BitVec.ofNat 12 (0xC83 + k.val)) 0) s (fun t => XResult s t 4 rd (v / 2 ^ 32 : Nat)))) ∧
  ∀ (s : State) (rd rs1 : RegNum) (uimm : BitVec 5) (csr : BitVec 12), 0xC00 ≤ csr.toNat → csr.toNat < 0xCA0 →
    (csrAt s.cfg csr).isSome = true →
      TakesTrap (.csrrw rd csr rs1) s (.illegalInstruction (encode (.csrrw rd csr rs1))) ∧
      TakesTrap (.csrrwi rd csr uimm) s (.illegalInstruction (encode (.csrrwi rd csr uimm))) ∧
      (rs1 ≠ 0 → TakesTrap (.csrrs rd csr rs1) s (.illegalInstruction (encode (.csrrs rd csr rs1))) ∧
        TakesTrap (.csrrc rd csr rs1) s (.illegalInstruction (encode (.csrrc rd csr rs1)))) ∧
      (uimm ≠ 0 → TakesTrap (.csrrsi rd csr uimm) s (.illegalInstruction (encode (.csrrsi rd csr uimm))) ∧
        TakesTrap (.csrrci rd csr uimm) s (.illegalInstruction (encode (.csrrci rd csr uimm))))

/-! ### F, D and Q -/

/-- The transfers: a load and a move into an f register box the bits, a store and a move out of one take the low bits whatever
is above them, unchanged; a move to x is sign-extended (R54, R540, R541, R564, R565, R610, R611, R636, R637, R670, R671). -/
def Obligations.FloatTransfers : Prop :=
  ∀ (s : State) (r rs1 : RegNum) (imm : BitVec 12),
    let a := s.address rs1 (immValue imm)
    let v (q : RegNum) : Nat := (s.f[q.toNat]'q.isLt).toNat % 2 ^ s.flen
    a.toNat = s.target (s.uval rs1 + imm.toInt) ∧
    (AccessAnswer (.flw r rs1 imm) s .load 4 a (fun t => FLoad s t 4 4 r a) ∧
      AccessAnswer (.fld r rs1 imm) s .load 8 a (fun t => FLoad s t 4 8 r a) ∧
      AccessAnswer (.flq r rs1 imm) s .load 16 a (fun t => FLoad s t 4 16 r a)) ∧
    (AccessAnswer (.fsw r rs1 imm) s .store 4 a (fun t => StoreDone s t 4 4 a (v r % 2 ^ 32)) ∧
      AccessAnswer (.fsd r rs1 imm) s .store 8 a (fun t => StoreDone s t 4 8 a (v r % 2 ^ 64)) ∧
      AccessAnswer (.fsq r rs1 imm) s .store 16 a (fun t => StoreDone s t 4 16 a (v r % 2 ^ 128))) ∧
    Completes (.fmvXW r rs1) s (fun t => XResult s t 4 r (((v rs1 % 2 ^ 32 : Nat) : Int).bmod (2 ^ 32))) ∧
    Completes (.fmvXD r rs1) s (fun t => XResult s t 4 r (((v rs1 % 2 ^ 64 : Nat) : Int).bmod (2 ^ 64))) ∧
    Completes (.fmvWX r rs1) s (fun t => FResult s t 32 r ((s.rx rs1).toNat % 2 ^ 32)) ∧
    Completes (.fmvDX r rs1) s (fun t => FResult s t 64 r ((s.rx rs1).toNat))

/-- Sign injection: every bit but the sign from rs1, the sign from rs2, its opposite, or the XOR of both, and no flag (R561 to
R563, R633 to R635, R695 to R697). -/
def Obligations.SignInjection : Prop :=
  ∀ (s : State) (rd rs1 rs2 : RegNum),
    let mag (t : Fmt) : Nat := s.fread t rs1 % 2 ^ (t.width - 1)
    let sign (t : Fmt) (r : RegNum) : Nat := s.fread t r / 2 ^ (t.width - 1)
    let out (t : Fmt) (sg : Nat) : State → Prop := fun u => FResult s u t.width rd (mag t + sg * 2 ^ (t.width - 1))
    Completes (.fsgnjS rd rs1 rs2) s (out .s (sign .s rs2)) ∧
    Completes (.fsgnjnS rd rs1 rs2) s (out .s (1 - sign .s rs2)) ∧
    Completes (.fsgnjxS rd rs1 rs2) s (out .s ((sign .s rs1 + sign .s rs2) % 2)) ∧
    Completes (.fsgnjD rd rs1 rs2) s (out .d (sign .d rs2)) ∧
    Completes (.fsgnjnD rd rs1 rs2) s (out .d (1 - sign .d rs2)) ∧
    Completes (.fsgnjxD rd rs1 rs2) s (out .d ((sign .d rs1 + sign .d rs2) % 2)) ∧
    Completes (.fsgnjQ rd rs1 rs2) s (out .q (sign .q rs2)) ∧
    Completes (.fsgnjnQ rd rs1 rs2) s (out .q (1 - sign .q rs2)) ∧
    Completes (.fsgnjxQ rd rs1 rs2) s (out .q ((sign .q rs1 + sign .q rs2) % 2))

/-- The instructions that round an arithmetic result: with a rounding mode of Table 11.1, given by the instruction or, for 111,
by frm, f[rd] receives the operation's result, boxed, and its flags accrue; with a reserved one they are illegal (R45, R52,
R53, R56, R531, R542 to R546, R549 to R552, R612 to R616, R619 to R622, R672 to R676, R679 to R682). That the static modes 101 and 110 are illegal is this spec's choice (D18,
log 20). What the operations give, which is general knowledge by R539's own mark (D36, log 21), `ArithmeticIsRounded` and
`NanAndInfiniteOperands` say. -/
def Obligations.FloatArithmetic : Prop :=
  ∀ (s : State) (rd rs1 rs2 rs3 : RegNum) (rm : BitVec 3),
    let a (t : Fmt) : FpVal := s.fval t rs1
    let b (t : Fmt) : FpVal := s.fval t rs2
    let c (t : Fmt) : FpVal := s.fval t rs3
    let two (t : Fmt) (op : Fmt → Rm → FpVal → FpVal → FpResult) : Rm → State → Prop :=
      fun m u => FArith s u t.width rd (op t m (a t) (b t))
    let root (t : Fmt) : Rm → State → Prop := fun m u => FArith s u t.width rd (sqrtFp t m (a t))
    let fused (t : Fmt) (x z : FpVal) : Rm → State → Prop := fun m u => FArith s u t.width rd (fmaFp t m x (b t) z)
    (RoundedAnswer (.faddS rd rs1 rs2 rm) s rm (two .s addFp) ∧ RoundedAnswer (.fsubS rd rs1 rs2 rm) s rm (two .s subFp) ∧
      RoundedAnswer (.fmulS rd rs1 rs2 rm) s rm (two .s mulFp) ∧ RoundedAnswer (.fdivS rd rs1 rs2 rm) s rm (two .s divFp) ∧
      RoundedAnswer (.fsqrtS rd rs1 rm) s rm (root .s) ∧
      RoundedAnswer (.fmaddS rd rs1 rs2 rs3 rm) s rm (fused .s (a .s) (c .s)) ∧
      RoundedAnswer (.fmsubS rd rs1 rs2 rs3 rm) s rm (fused .s (a .s) (c .s).negate) ∧
      RoundedAnswer (.fnmsubS rd rs1 rs2 rs3 rm) s rm (fused .s (a .s).negate (c .s)) ∧
      RoundedAnswer (.fnmaddS rd rs1 rs2 rs3 rm) s rm (fused .s (a .s).negate (c .s).negate)) ∧
    (RoundedAnswer (.faddD rd rs1 rs2 rm) s rm (two .d addFp) ∧ RoundedAnswer (.fsubD rd rs1 rs2 rm) s rm (two .d subFp) ∧
      RoundedAnswer (.fmulD rd rs1 rs2 rm) s rm (two .d mulFp) ∧ RoundedAnswer (.fdivD rd rs1 rs2 rm) s rm (two .d divFp) ∧
      RoundedAnswer (.fsqrtD rd rs1 rm) s rm (root .d) ∧
      RoundedAnswer (.fmaddD rd rs1 rs2 rs3 rm) s rm (fused .d (a .d) (c .d)) ∧
      RoundedAnswer (.fmsubD rd rs1 rs2 rs3 rm) s rm (fused .d (a .d) (c .d).negate) ∧
      RoundedAnswer (.fnmsubD rd rs1 rs2 rs3 rm) s rm (fused .d (a .d).negate (c .d)) ∧
      RoundedAnswer (.fnmaddD rd rs1 rs2 rs3 rm) s rm (fused .d (a .d).negate (c .d).negate)) ∧
    (RoundedAnswer (.faddQ rd rs1 rs2 rm) s rm (two .q addFp) ∧ RoundedAnswer (.fsubQ rd rs1 rs2 rm) s rm (two .q subFp) ∧
      RoundedAnswer (.fmulQ rd rs1 rs2 rm) s rm (two .q mulFp) ∧ RoundedAnswer (.fdivQ rd rs1 rs2 rm) s rm (two .q divFp) ∧
      RoundedAnswer (.fsqrtQ rd rs1 rm) s rm (root .q) ∧
      RoundedAnswer (.fmaddQ rd rs1 rs2 rs3 rm) s rm (fused .q (a .q) (c .q)) ∧
      RoundedAnswer (.fmsubQ rd rs1 rs2 rs3 rm) s rm (fused .q (a .q) (c .q).negate) ∧
      RoundedAnswer (.fnmsubQ rd rs1 rs2 rs3 rm) s rm (fused .q (a .q).negate (c .q)) ∧
      RoundedAnswer (.fnmaddQ rd rs1 rs2 rs3 rm) s rm (fused .q (a .q).negate (c .q).negate))

/-- FMIN, FMAX, the comparisons and FCLASS, for every format (R547, R548, R566 to R569, R617, R618, R638 to R641, R677, R678,
R698 to R701). What they give, `ComparisonAndClassification` says. -/
def Obligations.FloatCompareAndSelect : Prop :=
  ∀ (s : State) (rd rs1 rs2 : RegNum),
    let least (t : Fmt) : State → Prop := fun u => FArith s u t.width rd (minMaxFp t false (s.fread t rs1) (s.fread t rs2))
    let most (t : Fmt) : State → Prop := fun u => FArith s u t.width rd (minMaxFp t true (s.fread t rs1) (s.fread t rs2))
    let cmp (t : Fmt) (op : FpVal → FpVal → Bool × FpFlags) : State → Prop := fun u =>
      FToX s u rd (if (op (s.fval t rs1) (s.fval t rs2)).1 then 1 else 0) (op (s.fval t rs1) (s.fval t rs2)).2
    let cls (t : Fmt) : State → Prop := fun u => XResult s u 4 rd (2 ^ classFp t (s.fread t rs1))
    (Completes (.fminS rd rs1 rs2) s (least .s) ∧ Completes (.fmaxS rd rs1 rs2) s (most .s) ∧
      Completes (.feqS rd rs1 rs2) s (cmp .s feqFp) ∧ Completes (.fltS rd rs1 rs2) s (cmp .s fltFp) ∧
      Completes (.fleS rd rs1 rs2) s (cmp .s fleFp) ∧ Completes (.fclassS rd rs1) s (cls .s)) ∧
    (Completes (.fminD rd rs1 rs2) s (least .d) ∧ Completes (.fmaxD rd rs1 rs2) s (most .d) ∧
      Completes (.feqD rd rs1 rs2) s (cmp .d feqFp) ∧ Completes (.fltD rd rs1 rs2) s (cmp .d fltFp) ∧
      Completes (.fleD rd rs1 rs2) s (cmp .d fleFp) ∧ Completes (.fclassD rd rs1) s (cls .d)) ∧
    (Completes (.fminQ rd rs1 rs2) s (least .q) ∧ Completes (.fmaxQ rd rs1 rs2) s (most .q) ∧
      Completes (.feqQ rd rs1 rs2) s (cmp .q feqFp) ∧ Completes (.fltQ rd rs1 rs2) s (cmp .q fltFp) ∧
      Completes (.fleQ rd rs1 rs2) s (cmp .q fleFp) ∧ Completes (.fclassQ rd rs1) s (cls .q))

/-- The conversions: to an integer of each type, 32-bit ones sign-extended; from an integer; between formats; with the
rounding-mode check, by Table 11.1, even where the result does not depend on it (R45, R531, R553 to R560, R570, R623 to R632,
R683 to R694). That the check is made there too and that the static modes 101 and 110 are illegal are this spec's choices (D18, log 20). What the
conversions give, `ConversionsAreRounded` and `NanAndInfiniteOperands` say. -/
def Obligations.FloatConversions : Prop :=
  ∀ (s : State) (rd rs1 : RegNum) (rm : BitVec 3),
    let toI (t : Fmt) (lo hi : Int) (wrap : Int → Int) : Rm → State → Prop := fun m u =>
      FToX s u rd (wrap (toIntFp m lo hi (s.fval t rs1)).1) (toIntFp m lo hi (s.fval t rs1)).2
    let word : Int → Int := fun i => i.bmod (2 ^ 32)
    let w (t : Fmt) := toI t (-2 ^ 31) (2 ^ 31 - 1) word
    let wu (t : Fmt) := toI t 0 (2 ^ 32 - 1) word
    let l (t : Fmt) := toI t (-2 ^ 63) (2 ^ 63 - 1) id
    let lu (t : Fmt) := toI t 0 (2 ^ 64 - 1) id
    let of (t : Fmt) (i : Int) : Rm → State → Prop := fun m u => FArith s u t.width rd (ofIntFp t m i)
    let cvt (src dst : Fmt) : Rm → State → Prop := fun m u => FArith s u dst.width rd (convertFp dst m (s.fval src rs1))
    (RoundedAnswer (.fcvtWS rd rs1 rm) s rm (w .s) ∧ RoundedAnswer (.fcvtWuS rd rs1 rm) s rm (wu .s) ∧
      RoundedAnswer (.fcvtLS rd rs1 rm) s rm (l .s) ∧ RoundedAnswer (.fcvtLuS rd rs1 rm) s rm (lu .s) ∧
      RoundedAnswer (.fcvtWD rd rs1 rm) s rm (w .d) ∧ RoundedAnswer (.fcvtWuD rd rs1 rm) s rm (wu .d) ∧
      RoundedAnswer (.fcvtLD rd rs1 rm) s rm (l .d) ∧ RoundedAnswer (.fcvtLuD rd rs1 rm) s rm (lu .d) ∧
      RoundedAnswer (.fcvtWQ rd rs1 rm) s rm (w .q) ∧ RoundedAnswer (.fcvtWuQ rd rs1 rm) s rm (wu .q) ∧
      RoundedAnswer (.fcvtLQ rd rs1 rm) s rm (l .q) ∧ RoundedAnswer (.fcvtLuQ rd rs1 rm) s rm (lu .q)) ∧
    (RoundedAnswer (.fcvtSW rd rs1 rm) s rm (of .s (s.sval32 rs1)) ∧
      RoundedAnswer (.fcvtSWu rd rs1 rm) s rm (of .s (s.uval32 rs1)) ∧
      RoundedAnswer (.fcvtSL rd rs1 rm) s rm (of .s ((s.uval rs1).bmod (2 ^ 64))) ∧
      RoundedAnswer (.fcvtSLu rd rs1 rm) s rm (of .s (s.uval rs1)) ∧
      RoundedAnswer (.fcvtDW rd rs1 rm) s rm (of .d (s.sval32 rs1)) ∧
      RoundedAnswer (.fcvtDWu rd rs1 rm) s rm (of .d (s.uval32 rs1)) ∧
      RoundedAnswer (.fcvtDL rd rs1 rm) s rm (of .d ((s.uval rs1).bmod (2 ^ 64))) ∧
      RoundedAnswer (.fcvtDLu rd rs1 rm) s rm (of .d (s.uval rs1)) ∧
      RoundedAnswer (.fcvtQW rd rs1 rm) s rm (of .q (s.sval32 rs1)) ∧
      RoundedAnswer (.fcvtQWu rd rs1 rm) s rm (of .q (s.uval32 rs1)) ∧
      RoundedAnswer (.fcvtQL rd rs1 rm) s rm (of .q ((s.uval rs1).bmod (2 ^ 64))) ∧
      RoundedAnswer (.fcvtQLu rd rs1 rm) s rm (of .q (s.uval rs1))) ∧
    (RoundedAnswer (.fcvtSD rd rs1 rm) s rm (cvt .d .s) ∧ RoundedAnswer (.fcvtDS rd rs1 rm) s rm (cvt .s .d) ∧
      RoundedAnswer (.fcvtSQ rd rs1 rm) s rm (cvt .q .s) ∧ RoundedAnswer (.fcvtQS rd rs1 rm) s rm (cvt .s .q) ∧
      RoundedAnswer (.fcvtDQ rd rs1 rm) s rm (cvt .q .d) ∧ RoundedAnswer (.fcvtQD rd rs1 rm) s rm (cvt .d .q))

/-- Rounding of a nonzero real number to a format, given exactly or as a number it is above by less than one unit: the result
is the number the mode asks for among all of the format's, or on overflow infinity or the largest finite number; NX is raised
where the result is not exact, UF too where the number is tiny after rounding, OF and NX on overflow (R535, R538; general
knowledge by R538's own mark, log 21). -/
def Obligations.RoundingCorrect : Prop :=
  ∀ (t : Fmt) (m : Rm) (neg : Bool) (mant : Nat) (exp : Int) (sticky : Bool) (x : ℝ), mant ≠ 0 → (neg = true ↔ x < 0) →
    (sticky = false → |x| = (mant : ℝ) * 2 ^ exp) →
    (sticky = true → 2 ^ (t.fracBits + 1) ≤ mant ∧ (mant : ℝ) * 2 ^ exp < |x| ∧ |x| < ((mant : ℝ) + 1) * 2 ^ exp) →
      RoundsTo t m x (roundFp t m neg mant exp sticky)

/-- Addition, subtraction, multiplication, division, square root and fused multiply-add of finite operands: the exact result
rounded once; the sign of an exact zero; division by zero gives infinity with DZ, and zero by zero and the square root of a
negative number are invalid (R538, R539; general knowledge by their own mark, D36, log 21). -/
def Obligations.ArithmeticIsRounded : Prop :=
  ∀ (t : Fmt) (m : Rm) (u v w : Nat) (na nb nc : Bool) (ma mb mc : Nat) (ea eb ec : Int),
    decodeFp t u = .fin na ma ea → decodeFp t v = .fin nb mb eb → decodeFp t w = .fin nc mc ec →
    let a : ℝ := finiteValue na ma ea
    let b : ℝ := finiteValue nb mb eb
    let c : ℝ := finiteValue nc mc ec
    let fa := decodeFp t u
    let fb := decodeFp t v
    let fc := decodeFp t w
    let down : Bool := decide (m = .rdn)
    (a + b ≠ 0 → RoundsTo t m (a + b) (addFp t m fa fb)) ∧
    (a + b = 0 → ZeroResult t (if a = 0 ∧ na = nb then na else down) (addFp t m fa fb)) ∧
    (a - b ≠ 0 → RoundsTo t m (a - b) (subFp t m fa fb)) ∧
    (a - b = 0 → ZeroResult t (if a = 0 ∧ na = !nb then na else down) (subFp t m fa fb)) ∧
    (a * b ≠ 0 → RoundsTo t m (a * b) (mulFp t m fa fb)) ∧
    (a * b = 0 → ZeroResult t (na != nb) (mulFp t m fa fb)) ∧
    (a ≠ 0 → b ≠ 0 → RoundsTo t m (a / b) (divFp t m fa fb)) ∧
    (a = 0 → b ≠ 0 → ZeroResult t (na != nb) (divFp t m fa fb)) ∧
    (a ≠ 0 → b = 0 → divFp t m fa fb = ⟨withSign t (na != nb) t.infBits, flagDZ⟩) ∧
    (a = 0 → b = 0 → InvalidResult t (divFp t m fa fb)) ∧
    (0 < a → RoundsTo t m (Real.sqrt a) (sqrtFp t m fa)) ∧
    (a = 0 → ZeroResult t na (sqrtFp t m fa)) ∧
    (a < 0 → InvalidResult t (sqrtFp t m fa)) ∧
    (a * b + c ≠ 0 → RoundsTo t m (a * b + c) (fmaFp t m fa fb fc)) ∧
    (a * b + c = 0 → ZeroResult t (if c = 0 ∧ (na != nb) = nc then nc else down) (fmaFp t m fa fb fc))

/-- The conversions. To an integer range: a finite value is rounded by the mode and clipped to the range with the invalid
flag, inexact is raised where only rounding changed it, and NaN and infinities give the ends of the range, invalid. From an
integer: rounded once, zero giving +0. Between formats: rounded once, a zero keeping its sign, and to a format as wide or wider
exact without a flag (R557 to R560, R570, R631, R632; the rounding is general knowledge by R538's own mark, and by R570's that
inexact is not raised together with invalid, log 21). -/
def Obligations.ConversionsAreRounded : Prop :=
  (∀ (m : Rm) (lo hi : Int),
    (∀ sg, toIntFp m lo hi (.nan sg) = (hi, flagNV)) ∧
    (∀ neg, toIntFp m lo hi (.inf neg) = (if neg then lo else hi, flagNV)) ∧
    ∀ neg mant exp,
      let x := finiteValue neg mant exp
      ∃ i : Int,
        (match m with
          | .rtz => i = if neg then ⌈x⌉ else ⌊x⌋
          | .rdn => i = ⌊x⌋
          | .rup => i = ⌈x⌉
          | .rne => 2 * |x - i| ≤ 1 ∧ (2 * |x - i| = 1 → i % 2 = 0)
          | .rmm => 2 * |x - i| ≤ 1 ∧ (2 * |x - i| = 1 → |x| < |(i : ℚ)|)) ∧
        toIntFp m lo hi (.fin neg mant exp) =
          if i < lo then (lo, flagNV) else if hi < i then (hi, flagNV)
          else (i, if (i : ℚ) = x then noFlags else flagNX)) ∧
  (∀ (t : Fmt) (m : Rm) (i : Int), (i ≠ 0 → RoundsTo t m (i : ℝ) (ofIntFp t m i)) ∧ ofIntFp t m 0 = ⟨0, noFlags⟩) ∧
  ∀ (src dst : Fmt) (m : Rm) (u : Nat) (n : Bool) (k : Nat) (e : Int), decodeFp src u = .fin n k e →
    let x : ℝ := finiteValue n k e
    let r := convertFp dst m (decodeFp src u)
    (x ≠ 0 → RoundsTo dst m x r) ∧ (x = 0 → ZeroResult dst n r) ∧
      (src.width ≤ dst.width → r.flags = noFlags ∧ ∃ k' e', decodeFp dst r.bits = .fin n k' e' ∧
        finiteValue n k' e' = finiteValue n k e)

/-- NaN operands (R532, R539): an arithmetic operation with one gives the canonical NaN, and raises invalid exactly where an
operand is signaling, or, in a fused multiply-add, where the product is of an infinity and a zero. Infinite operands (R539):
an infinity results, with no flag, but that infinities of opposite signs added, an infinity times a zero, an infinity by an
infinity, and the square root of the negative infinity are invalid, and a finite number by an infinity is a zero. All this is
general knowledge by R539's own mark (D36, log 21), but for the canonical NaN and the product of an infinity and a zero. -/
def Obligations.NanAndInfiniteOperands : Prop :=
  ∀ (t : Fmt) (m : Rm),
    (∀ a b c : FpVal,
      let nan (invalid : Bool) : FpResult := ⟨t.nanBits, if invalid then flagNV else noFlags⟩
      let infZero : Prop := ∃ x n e, (a = .inf x ∧ b = .fin n 0 e) ∨ (b = .inf x ∧ a = .fin n 0 e)
      (a.isNan || b.isNan → addFp t m a b = nan (a.isSignaling || b.isSignaling) ∧
        subFp t m a b = nan (a.isSignaling || b.isSignaling) ∧ mulFp t m a b = nan (a.isSignaling || b.isSignaling) ∧
        divFp t m a b = nan (a.isSignaling || b.isSignaling)) ∧
      (a.isNan → sqrtFp t m a = nan a.isSignaling ∧ convertFp t m a = nan a.isSignaling) ∧
      (infZero → InvalidResult t (fmaFp t m a b c)) ∧
      (¬ infZero → a.isNan || b.isNan || c.isNan →
        fmaFp t m a b c = nan (a.isSignaling || b.isSignaling || c.isSignaling)) ∧
      (¬ infZero → ¬ (a.isNan || b.isNan || c.isNan) → ((∃ x, a = .inf x) ∨ ∃ x, b = .inf x) →
        let sign : Bool := a.neg != b.neg
        (c = .inf (!sign) → InvalidResult t (fmaFp t m a b c)) ∧ (c ≠ .inf (!sign) → InfResult t sign (fmaFp t m a b c)))) ∧
    ∀ (x y n : Bool) (k : Nat) (e : Int),
      let fin : FpVal := .fin n k e
      (x = y → InfResult t x (addFp t m (.inf x) (.inf y)) ∧ InvalidResult t (subFp t m (.inf x) (.inf y))) ∧
      (x ≠ y → InvalidResult t (addFp t m (.inf x) (.inf y)) ∧ InfResult t x (subFp t m (.inf x) (.inf y))) ∧
      InfResult t x (addFp t m (.inf x) fin) ∧ InfResult t x (addFp t m fin (.inf x)) ∧
      InfResult t x (subFp t m (.inf x) fin) ∧ InfResult t (!x) (subFp t m fin (.inf x)) ∧
      InfResult t (x != y) (mulFp t m (.inf x) (.inf y)) ∧
      (k ≠ 0 → InfResult t (x != n) (mulFp t m (.inf x) fin) ∧ InfResult t (n != x) (mulFp t m fin (.inf x))) ∧
      (k = 0 → InvalidResult t (mulFp t m (.inf x) fin) ∧ InvalidResult t (mulFp t m fin (.inf x))) ∧
      InvalidResult t (divFp t m (.inf x) (.inf y)) ∧ InfResult t (x != n) (divFp t m (.inf x) fin) ∧
      ZeroResult t (n != x) (divFp t m fin (.inf x)) ∧
      InfResult t false (sqrtFp t m (.inf false)) ∧ InvalidResult t (sqrtFp t m (.inf true)) ∧
      InfResult t x (convertFp t m (.inf x)) ∧
      ∀ (n' : Bool) (k' : Nat) (e' : Int), InfResult t x (fmaFp t m fin (.fin n' k' e') (.inf x))

/-- Comparison, selection and classification (R547, R548, R566 to R569): the order is that of the values, zeros of either sign
being equal and the infinities at its ends; on a NaN the comparisons give 0, FLT and FLE with NV, FEQ with NV where an operand
is signaling; FMIN and FMAX give one of their operands, the number where the other is a NaN, the canonical NaN where both
are, and take -0 for less than +0; FCLASS tells the ten classes apart. That zeros of either sign are equal in a comparison is
general knowledge by R566's own mark, and so is what patterns denote by R537's (D36, log 21). -/
def Obligations.ComparisonAndClassification : Prop :=
  (∀ na ma ea nb mb eb x y,
    let a : FpVal := .fin na ma ea
    let b : FpVal := .fin nb mb eb
    let plain (r : Prop) [Decidable r] : Bool × FpFlags := (decide r, noFlags)
    (fltFp a b = plain (finiteValue na ma ea < finiteValue nb mb eb) ∧
      fleFp a b = plain (finiteValue na ma ea ≤ finiteValue nb mb eb) ∧
      feqFp a b = plain (finiteValue na ma ea = finiteValue nb mb eb)) ∧
    (fltFp (.inf x) b = plain (x = true) ∧ fleFp (.inf x) b = plain (x = true) ∧ feqFp (.inf x) b = plain False) ∧
    (fltFp a (.inf x) = plain (x = false) ∧ fleFp a (.inf x) = plain (x = false) ∧ feqFp a (.inf x) = plain False) ∧
    (fltFp (.inf x) (.inf y) = plain (x = true ∧ y = false) ∧ fleFp (.inf x) (.inf y) = plain (x = true ∨ y = false) ∧
      feqFp (.inf x) (.inf y) = plain (x = y))) ∧
  (∀ a b : FpVal, a.isNan || b.isNan → fltFp a b = (false, flagNV) ∧ fleFp a b = (false, flagNV) ∧
    feqFp a b = (false, if a.isSignaling || b.isSignaling then flagNV else noFlags)) ∧
  (∀ (t : Fmt) (mx : Bool) (a b : Nat),
    let r := (minMaxFp t mx a b).bits
    ((decodeFp t a).isNan = true → (decodeFp t b).isNan = true → r = t.nanBits) ∧
    ((decodeFp t a).isNan = true → (decodeFp t b).isNan = false → r = b) ∧
    ((decodeFp t a).isNan = false → (decodeFp t b).isNan = true → r = a) ∧
    ((decodeFp t a).isNan = false → (decodeFp t b).isNan = false →
      (r = a ∨ r = b) ∧ (mx = false → ltFp (decodeFp t a) (decodeFp t r) = false ∧ ltFp (decodeFp t b) (decodeFp t r) = false) ∧
        (mx = true → ltFp (decodeFp t r) (decodeFp t a) = false ∧ ltFp (decodeFp t r) (decodeFp t b) = false)) ∧
    (∀ ea eb, decodeFp t a = .fin true 0 ea → decodeFp t b = .fin false 0 eb →
      r = (if mx then b else a) ∧ (minMaxFp t mx b a).bits = if mx then b else a) ∧
    ((minMaxFp t mx a b).flags = if (decodeFp t a).isSignaling || (decodeFp t b).isSignaling then flagNV else noFlags)) ∧
  ∀ (t : Fmt) (a : Nat),
    (∀ n, decodeFp t a = .inf n → classFp t a = if n then 0 else 7) ∧
    (∀ sg, decodeFp t a = .nan sg → classFp t a = if sg then 8 else 9) ∧
    ∀ n k e, decodeFp t a = .fin n k e →
      let v := |finiteValue n k e|
      (v = 0 → classFp t a = if n then 3 else 4) ∧
      (0 < v → v < 2 ^ t.emin → classFp t a = if n then 2 else 5) ∧
      ((2 : ℚ) ^ t.emin ≤ v → classFp t a = if n then 1 else 6)

/-! ### C -/

/-- Each computational compressed instruction completes and does what the instruction it expands to does, with 2 in place of
4 added to the pc (R722, R756 to R774). -/
def Obligations.CompressedComputation : Prop :=
  ∀ (s : State) (r q : CRegNum) (rd rs : RegNum) (i6 : BitVec 6) (i8 : BitVec 8),
    let as (i e : Instr) : Prop := ∃ t, exec e s = .next t ∧ exec i s = .next { t with pc := lowBits s.xlen (s.pc + 2) }
    as (.cAddi4spn r i8) (.addi (creg r) 2 (0#2 ++ i8 ++ 0#2)) ∧ as (.cNop i6) (.addi 0 0 0) ∧
    as (.cAddi rd i6) (.addi rd rd (i6.signExtend 12)) ∧ as (.cAddiw rd i6) (.addiw rd rd (i6.signExtend 12)) ∧
    as (.cLi rd i6) (.addi rd 0 (i6.signExtend 12)) ∧ as (.cAddi16sp i6) (.addi 2 2 ((i6 ++ 0#4).signExtend 12)) ∧
    as (.cLui rd i6) (.lui rd (i6.signExtend 20)) ∧ as (.cSrli r i6) (.srli (creg r) (creg r) i6) ∧
    as (.cSrai r i6) (.srai (creg r) (creg r) i6) ∧ as (.cAndi r i6) (.andi (creg r) (creg r) (i6.signExtend 12)) ∧
    as (.cSub r q) (.sub (creg r) (creg r) (creg q)) ∧ as (.cXor r q) (.xor (creg r) (creg r) (creg q)) ∧
    as (.cOr r q) (.or (creg r) (creg r) (creg q)) ∧ as (.cAnd r q) (.and (creg r) (creg r) (creg q)) ∧
    as (.cSubw r q) (.subw (creg r) (creg r) (creg q)) ∧ as (.cAddw r q) (.addw (creg r) (creg r) (creg q)) ∧
    as (.cSlli rd i6) (.slli rd rd i6) ∧ as (.cMv rd rs) (.add rd 0 rs) ∧ as (.cAdd rd rs) (.add rd rd rs)

/-- The compressed loads and stores: the offsets are zero-extended and scaled by the width, the base is x2 in the SP forms;
each does what the load or store of that width does, and takes the same exceptions (R722, R726, R730 to R749). -/
def Obligations.CompressedMemory : Prop :=
  ∀ (s : State) (r q : CRegNum) (rd : RegNum) (o5 : BitVec 5) (o6 : BitVec 6),
    let at3 (k : Nat) : Word := s.address (creg q) (scaledOffset k o5)
    let sp (k : Nat) : Word := s.address 2 (scaledOffset k o6)
    let xload (i : Instr) (d : RegNum) (n : Nat) (a : Word) : Prop :=
      AccessAnswer i s .load n a fun t => XLoad s t 2 n d a ((s.loadedValue n a : Int).bmod (256 ^ n))
    let fload (i : Instr) (d : RegNum) (n : Nat) (a : Word) : Prop := AccessAnswer i s .load n a fun t => FLoad s t 2 n d a
    let xstore (i : Instr) (v : RegNum) (n : Nat) (a : Word) : Prop :=
      AccessAnswer i s .store n a fun t => StoreDone s t 2 n a ((s.rx v).toNat % 256 ^ n)
    let fstore (i : Instr) (v : RegNum) (n : Nat) (a : Word) : Prop :=
      AccessAnswer i s .store n a fun t => StoreDone s t 2 n a ((s.f[v.toNat]'v.isLt).toNat % 2 ^ s.flen % 256 ^ n)
    (∀ k, k ≤ 3 → (at3 k).toNat = s.target (s.uval (creg q) + o5.toNat * 2 ^ k) ∧
      (sp k).toNat = s.target (s.uval 2 + o6.toNat * 2 ^ k)) ∧
    (xload (.cLw r q o5) (creg r) 4 (at3 2) ∧ xload (.cLd r q o5) (creg r) 8 (at3 3) ∧
      fload (.cFlw r q o5) (creg r) 4 (at3 2) ∧ fload (.cFld r q o5) (creg r) 8 (at3 3)) ∧
    (xstore (.cSw r q o5) (creg r) 4 (at3 2) ∧ xstore (.cSd r q o5) (creg r) 8 (at3 3) ∧
      fstore (.cFsw r q o5) (creg r) 4 (at3 2) ∧ fstore (.cFsd r q o5) (creg r) 8 (at3 3)) ∧
    (xload (.cLwsp rd o6) rd 4 (sp 2) ∧ xload (.cLdsp rd o6) rd 8 (sp 3) ∧ fload (.cFlwsp rd o6) rd 4 (sp 2) ∧
      fload (.cFldsp rd o6) rd 8 (sp 3)) ∧
    (xstore (.cSwsp rd o6) rd 4 (sp 2) ∧ xstore (.cSdsp rd o6) rd 8 (sp 3) ∧ fstore (.cFswsp rd o6) rd 4 (sp 2) ∧
      fstore (.cFsdsp rd o6) rd 8 (sp 3))

/-- The compressed jumps and branches: targets as their expansions have, links to pc + 2 (R722, R750 to R755). The four forms
that exist at XLEN = 128 only take the illegal-instruction exception (R386, R732, R737, R742, R747, D30). -/
def Obligations.CompressedControl : Prop :=
  ∀ (s : State) (r q : CRegNum) (rs : RegNum) (o11 : BitVec 11) (o8 : BitVec 8) (o5 : BitVec 5) (o6 : BitVec 6),
    JumpAnswer (.cJ o11) s 2 0 (s.target (s.pc.toNat + 2 * o11.toInt)) ∧
    JumpAnswer (.cJal o11) s 2 1 (s.target (s.pc.toNat + 2 * o11.toInt)) ∧
    JumpAnswer (.cJr rs) s 2 0 (s.target (s.uval rs) / 2 * 2) ∧
    JumpAnswer (.cJalr rs) s 2 1 (s.target (s.uval rs) / 2 * 2) ∧
    BranchAnswer (.cBeqz r o8) s 2 (s.uval (creg r) = 0) (s.target (s.pc.toNat + 2 * o8.toInt)) ∧
    BranchAnswer (.cBnez r o8) s 2 (s.uval (creg r) ≠ 0) (s.target (s.pc.toNat + 2 * o8.toInt)) ∧
    TakesTrap (.cLq r q o5) s (.illegalInstruction (encode (.cLq r q o5))) ∧
    TakesTrap (.cSq r q o5) s (.illegalInstruction (encode (.cSq r q o5))) ∧
    TakesTrap (.cLqsp rs o6) s (.illegalInstruction (encode (.cLqsp rs o6))) ∧
    TakesTrap (.cSqsp rs o6) s (.illegalInstruction (encode (.cSqsp rs o6)))

/-! ### The memory model -/

/-- Every RVTSO execution is an RVWMO execution: a candidate legal under Ztso is legal without it (R160, R161). -/
def Obligations.TsoIsStronger : Prop :=
  ∀ (c : Config) (e : Execution), e.legal { c with ext := { c.ext with ztso := true } } = true →
    e.legal { c with ext := { c.ext with ztso := false } } = true

/-- On one hart a legal execution is sequential: each byte a load reads comes from the program-order-latest earlier store to
that byte, or from the initial memory where there is none (R131, R150). -/
def Obligations.SingleHartIsSequential : Prop :=
  ∀ (c : Config) (e : Execution), e.legal c = true → e.streams.length = 1 →
    ∀ i x, i < e.gmo.length → (e.op i).load = true → x ∈ (e.op i).bytes →
      match e.readsFrom i x with
      | some k => storesTo (e.op k) x = true ∧ e.po k i = true ∧
          ∀ j, j < e.gmo.length → storesTo (e.op j) x = true → e.po j i = true → j = k ∨ e.po j k = true
      | none => ∀ j, j < e.gmo.length → storesTo (e.op j) x = true → e.po j i = false

end
end

