-- ==== Sys2Proof/Laws/Decode.lean ====
section
/-!
SUPPORT. The fields of each encoded format: what the decoder reads back from what the encoder wrote, field by field; and
that the two orders of each scrambled immediate are inverse to each other.
-/
namespace Sys2Proof

/-! ### encR -/

@[simp] theorem opcodeF_encR (f7 : BitVec 7) (rs2 : RegNum) (rs1 : RegNum) (f3 : BitVec 3) (rd : RegNum) (op : BitVec 7) :
    opcodeF (encR f7 rs2 rs1 f3 rd op) = op := by
  apply BitVec.eq_of_getLsbD_eq
  intro i hi
  simp only [opcodeF, encR, BitVec.getLsbD_append, BitVec.getLsbD_extractLsb']
  interval_cases i <;> simp

@[simp] theorem rdF_encR (f7 : BitVec 7) (rs2 : RegNum) (rs1 : RegNum) (f3 : BitVec 3) (rd : RegNum) (op : BitVec 7) :
    rdF (encR f7 rs2 rs1 f3 rd op) = rd := by
  apply BitVec.eq_of_getLsbD_eq
  intro i hi
  simp only [rdF, encR, BitVec.getLsbD_append, BitVec.getLsbD_extractLsb']
  interval_cases i <;> simp

@[simp] theorem f3F_encR (f7 : BitVec 7) (rs2 : RegNum) (rs1 : RegNum) (f3 : BitVec 3) (rd : RegNum) (op : BitVec 7) :
    f3F (encR f7 rs2 rs1 f3 rd op) = f3 := by
  apply BitVec.eq_of_getLsbD_eq
  intro i hi
  simp only [f3F, encR, BitVec.getLsbD_append, BitVec.getLsbD_extractLsb']
  interval_cases i <;> simp

@[simp] theorem rs1F_encR (f7 : BitVec 7) (rs2 : RegNum) (rs1 : RegNum) (f3 : BitVec 3) (rd : RegNum) (op : BitVec 7) :
    rs1F (encR f7 rs2 rs1 f3 rd op) = rs1 := by
  apply BitVec.eq_of_getLsbD_eq
  intro i hi
  simp only [rs1F, encR, BitVec.getLsbD_append, BitVec.getLsbD_extractLsb']
  interval_cases i <;> simp

@[simp] theorem rs2F_encR (f7 : BitVec 7) (rs2 : RegNum) (rs1 : RegNum) (f3 : BitVec 3) (rd : RegNum) (op : BitVec 7) :
    rs2F (encR f7 rs2 rs1 f3 rd op) = rs2 := by
  apply BitVec.eq_of_getLsbD_eq
  intro i hi
  simp only [rs2F, encR, BitVec.getLsbD_append, BitVec.getLsbD_extractLsb']
  interval_cases i <;> simp

@[simp] theorem f7F_encR (f7 : BitVec 7) (rs2 : RegNum) (rs1 : RegNum) (f3 : BitVec 3) (rd : RegNum) (op : BitVec 7) :
    f7F (encR f7 rs2 rs1 f3 rd op) = f7 := by
  apply BitVec.eq_of_getLsbD_eq
  intro i hi
  simp only [f7F, encR, BitVec.getLsbD_append, BitVec.getLsbD_extractLsb']
  interval_cases i <;> simp

/-! ### encI -/

@[simp] theorem opcodeF_encI (imm : BitVec 12) (rs1 : RegNum) (f3 : BitVec 3) (rd : RegNum) (op : BitVec 7) :
    opcodeF (encI imm rs1 f3 rd op) = op := by
  apply BitVec.eq_of_getLsbD_eq
  intro i hi
  simp only [opcodeF, encI, BitVec.getLsbD_append, BitVec.getLsbD_extractLsb']
  interval_cases i <;> simp

@[simp] theorem rdF_encI (imm : BitVec 12) (rs1 : RegNum) (f3 : BitVec 3) (rd : RegNum) (op : BitVec 7) :
    rdF (encI imm rs1 f3 rd op) = rd := by
  apply BitVec.eq_of_getLsbD_eq
  intro i hi
  simp only [rdF, encI, BitVec.getLsbD_append, BitVec.getLsbD_extractLsb']
  interval_cases i <;> simp

@[simp] theorem f3F_encI (imm : BitVec 12) (rs1 : RegNum) (f3 : BitVec 3) (rd : RegNum) (op : BitVec 7) :
    f3F (encI imm rs1 f3 rd op) = f3 := by
  apply BitVec.eq_of_getLsbD_eq
  intro i hi
  simp only [f3F, encI, BitVec.getLsbD_append, BitVec.getLsbD_extractLsb']
  interval_cases i <;> simp

@[simp] theorem rs1F_encI (imm : BitVec 12) (rs1 : RegNum) (f3 : BitVec 3) (rd : RegNum) (op : BitVec 7) :
    rs1F (encI imm rs1 f3 rd op) = rs1 := by
  apply BitVec.eq_of_getLsbD_eq
  intro i hi
  simp only [rs1F, encI, BitVec.getLsbD_append, BitVec.getLsbD_extractLsb']
  interval_cases i <;> simp

@[simp] theorem immI_encI (imm : BitVec 12) (rs1 : RegNum) (f3 : BitVec 3) (rd : RegNum) (op : BitVec 7) :
    immI (encI imm rs1 f3 rd op) = imm := by
  apply BitVec.eq_of_getLsbD_eq
  intro i hi
  simp only [immI, encI, BitVec.getLsbD_append, BitVec.getLsbD_extractLsb']
  interval_cases i <;> simp

@[simp] theorem f6F_encI (imm : BitVec 12) (rs1 : RegNum) (f3 : BitVec 3) (rd : RegNum) (op : BitVec 7) :
    f6F (encI imm rs1 f3 rd op) = imm.extractLsb' 6 6 := by
  apply BitVec.eq_of_getLsbD_eq
  intro i hi
  simp only [f6F, encI, BitVec.getLsbD_append, BitVec.getLsbD_extractLsb']
  interval_cases i <;> simp

@[simp] theorem shamtF_encI (imm : BitVec 12) (rs1 : RegNum) (f3 : BitVec 3) (rd : RegNum) (op : BitVec 7) :
    shamtF (encI imm rs1 f3 rd op) = imm.extractLsb' 0 6 := by
  apply BitVec.eq_of_getLsbD_eq
  intro i hi
  simp only [shamtF, encI, BitVec.getLsbD_append, BitVec.getLsbD_extractLsb']
  interval_cases i <;> simp

@[simp] theorem encI_extract_28_4 (imm : BitVec 12) (rs1 : RegNum) (f3 : BitVec 3) (rd : RegNum) (op : BitVec 7) :
    (encI imm rs1 f3 rd op).extractLsb' 28 4 = imm.extractLsb' 8 4 := by
  apply BitVec.eq_of_getLsbD_eq
  intro i hi
  simp only [encI, BitVec.getLsbD_append, BitVec.getLsbD_extractLsb']
  interval_cases i <;> simp

@[simp] theorem encI_extract_24_4 (imm : BitVec 12) (rs1 : RegNum) (f3 : BitVec 3) (rd : RegNum) (op : BitVec 7) :
    (encI imm rs1 f3 rd op).extractLsb' 24 4 = imm.extractLsb' 4 4 := by
  apply BitVec.eq_of_getLsbD_eq
  intro i hi
  simp only [encI, BitVec.getLsbD_append, BitVec.getLsbD_extractLsb']
  interval_cases i <;> simp

@[simp] theorem encI_extract_20_4 (imm : BitVec 12) (rs1 : RegNum) (f3 : BitVec 3) (rd : RegNum) (op : BitVec 7) :
    (encI imm rs1 f3 rd op).extractLsb' 20 4 = imm.extractLsb' 0 4 := by
  apply BitVec.eq_of_getLsbD_eq
  intro i hi
  simp only [encI, BitVec.getLsbD_append, BitVec.getLsbD_extractLsb']
  interval_cases i <;> simp

@[simp] theorem encI_extract_20_12 (imm : BitVec 12) (rs1 : RegNum) (f3 : BitVec 3) (rd : RegNum) (op : BitVec 7) :
    (encI imm rs1 f3 rd op).extractLsb' 20 12 = imm := by
  apply BitVec.eq_of_getLsbD_eq
  intro i hi
  simp only [encI, BitVec.getLsbD_append, BitVec.getLsbD_extractLsb']
  interval_cases i <;> simp

/-! ### encS -/

@[simp] theorem opcodeF_encS (imm : BitVec 12) (rs2 : RegNum) (rs1 : RegNum) (f3 : BitVec 3) (op : BitVec 7) :
    opcodeF (encS imm rs2 rs1 f3 op) = op := by
  apply BitVec.eq_of_getLsbD_eq
  intro i hi
  simp only [opcodeF, encS, BitVec.getLsbD_append, BitVec.getLsbD_extractLsb']
  interval_cases i <;> simp

@[simp] theorem f3F_encS (imm : BitVec 12) (rs2 : RegNum) (rs1 : RegNum) (f3 : BitVec 3) (op : BitVec 7) :
    f3F (encS imm rs2 rs1 f3 op) = f3 := by
  apply BitVec.eq_of_getLsbD_eq
  intro i hi
  simp only [f3F, encS, BitVec.getLsbD_append, BitVec.getLsbD_extractLsb']
  interval_cases i <;> simp

@[simp] theorem rs1F_encS (imm : BitVec 12) (rs2 : RegNum) (rs1 : RegNum) (f3 : BitVec 3) (op : BitVec 7) :
    rs1F (encS imm rs2 rs1 f3 op) = rs1 := by
  apply BitVec.eq_of_getLsbD_eq
  intro i hi
  simp only [rs1F, encS, BitVec.getLsbD_append, BitVec.getLsbD_extractLsb']
  interval_cases i <;> simp

@[simp] theorem rs2F_encS (imm : BitVec 12) (rs2 : RegNum) (rs1 : RegNum) (f3 : BitVec 3) (op : BitVec 7) :
    rs2F (encS imm rs2 rs1 f3 op) = rs2 := by
  apply BitVec.eq_of_getLsbD_eq
  intro i hi
  simp only [rs2F, encS, BitVec.getLsbD_append, BitVec.getLsbD_extractLsb']
  interval_cases i <;> simp

@[simp] theorem immS_encS (imm : BitVec 12) (rs2 : RegNum) (rs1 : RegNum) (f3 : BitVec 3) (op : BitVec 7) :
    immS (encS imm rs2 rs1 f3 op) = imm := by
  apply BitVec.eq_of_getLsbD_eq
  intro i hi
  simp only [immS, encS, BitVec.getLsbD_append, BitVec.getLsbD_extractLsb']
  interval_cases i <;> simp

/-! ### encB -/

@[simp] theorem opcodeF_encB (imm : BitVec 12) (rs2 : RegNum) (rs1 : RegNum) (f3 : BitVec 3) (op : BitVec 7) :
    opcodeF (encB imm rs2 rs1 f3 op) = op := by
  apply BitVec.eq_of_getLsbD_eq
  intro i hi
  simp only [opcodeF, encB, BitVec.getLsbD_append, BitVec.getLsbD_extractLsb']
  interval_cases i <;> simp

@[simp] theorem f3F_encB (imm : BitVec 12) (rs2 : RegNum) (rs1 : RegNum) (f3 : BitVec 3) (op : BitVec 7) :
    f3F (encB imm rs2 rs1 f3 op) = f3 := by
  apply BitVec.eq_of_getLsbD_eq
  intro i hi
  simp only [f3F, encB, BitVec.getLsbD_append, BitVec.getLsbD_extractLsb']
  interval_cases i <;> simp

@[simp] theorem rs1F_encB (imm : BitVec 12) (rs2 : RegNum) (rs1 : RegNum) (f3 : BitVec 3) (op : BitVec 7) :
    rs1F (encB imm rs2 rs1 f3 op) = rs1 := by
  apply BitVec.eq_of_getLsbD_eq
  intro i hi
  simp only [rs1F, encB, BitVec.getLsbD_append, BitVec.getLsbD_extractLsb']
  interval_cases i <;> simp

@[simp] theorem rs2F_encB (imm : BitVec 12) (rs2 : RegNum) (rs1 : RegNum) (f3 : BitVec 3) (op : BitVec 7) :
    rs2F (encB imm rs2 rs1 f3 op) = rs2 := by
  apply BitVec.eq_of_getLsbD_eq
  intro i hi
  simp only [rs2F, encB, BitVec.getLsbD_append, BitVec.getLsbD_extractLsb']
  interval_cases i <;> simp

@[simp] theorem immB_encB (imm : BitVec 12) (rs2 : RegNum) (rs1 : RegNum) (f3 : BitVec 3) (op : BitVec 7) :
    immB (encB imm rs2 rs1 f3 op) = imm := by
  apply BitVec.eq_of_getLsbD_eq
  intro i hi
  simp only [immB, encB, BitVec.getLsbD_append, BitVec.getLsbD_extractLsb']
  interval_cases i <;> simp

/-! ### encU -/

@[simp] theorem opcodeF_encU (imm : BitVec 20) (rd : RegNum) (op : BitVec 7) :
    opcodeF (encU imm rd op) = op := by
  apply BitVec.eq_of_getLsbD_eq
  intro i hi
  simp only [opcodeF, encU, BitVec.getLsbD_append, BitVec.getLsbD_extractLsb']
  interval_cases i <;> simp

@[simp] theorem rdF_encU (imm : BitVec 20) (rd : RegNum) (op : BitVec 7) :
    rdF (encU imm rd op) = rd := by
  apply BitVec.eq_of_getLsbD_eq
  intro i hi
  simp only [rdF, encU, BitVec.getLsbD_append, BitVec.getLsbD_extractLsb']
  interval_cases i <;> simp

@[simp] theorem immU_encU (imm : BitVec 20) (rd : RegNum) (op : BitVec 7) :
    immU (encU imm rd op) = imm := by
  apply BitVec.eq_of_getLsbD_eq
  intro i hi
  simp only [immU, encU, BitVec.getLsbD_append, BitVec.getLsbD_extractLsb']
  interval_cases i <;> simp

/-! ### encJ -/

@[simp] theorem opcodeF_encJ (imm : BitVec 20) (rd : RegNum) (op : BitVec 7) :
    opcodeF (encJ imm rd op) = op := by
  apply BitVec.eq_of_getLsbD_eq
  intro i hi
  simp only [opcodeF, encJ, BitVec.getLsbD_append, BitVec.getLsbD_extractLsb']
  interval_cases i <;> simp

@[simp] theorem rdF_encJ (imm : BitVec 20) (rd : RegNum) (op : BitVec 7) :
    rdF (encJ imm rd op) = rd := by
  apply BitVec.eq_of_getLsbD_eq
  intro i hi
  simp only [rdF, encJ, BitVec.getLsbD_append, BitVec.getLsbD_extractLsb']
  interval_cases i <;> simp

@[simp] theorem immJ_encJ (imm : BitVec 20) (rd : RegNum) (op : BitVec 7) :
    immJ (encJ imm rd op) = imm := by
  apply BitVec.eq_of_getLsbD_eq
  intro i hi
  simp only [immJ, encJ, BitVec.getLsbD_append, BitVec.getLsbD_extractLsb']
  interval_cases i <;> simp

/-! ### encR4 -/

@[simp] theorem opcodeF_encR4 (rs3 : RegNum) (fmt : BitVec 2) (rs2 : RegNum) (rs1 : RegNum) (rm : BitVec 3) (rd : RegNum) (op : BitVec 7) :
    opcodeF (encR4 rs3 fmt rs2 rs1 rm rd op) = op := by
  apply BitVec.eq_of_getLsbD_eq
  intro i hi
  simp only [opcodeF, encR4, BitVec.getLsbD_append, BitVec.getLsbD_extractLsb']
  interval_cases i <;> simp

@[simp] theorem rdF_encR4 (rs3 : RegNum) (fmt : BitVec 2) (rs2 : RegNum) (rs1 : RegNum) (rm : BitVec 3) (rd : RegNum) (op : BitVec 7) :
    rdF (encR4 rs3 fmt rs2 rs1 rm rd op) = rd := by
  apply BitVec.eq_of_getLsbD_eq
  intro i hi
  simp only [rdF, encR4, BitVec.getLsbD_append, BitVec.getLsbD_extractLsb']
  interval_cases i <;> simp

@[simp] theorem f3F_encR4 (rs3 : RegNum) (fmt : BitVec 2) (rs2 : RegNum) (rs1 : RegNum) (rm : BitVec 3) (rd : RegNum) (op : BitVec 7) :
    f3F (encR4 rs3 fmt rs2 rs1 rm rd op) = rm := by
  apply BitVec.eq_of_getLsbD_eq
  intro i hi
  simp only [f3F, encR4, BitVec.getLsbD_append, BitVec.getLsbD_extractLsb']
  interval_cases i <;> simp

@[simp] theorem rs1F_encR4 (rs3 : RegNum) (fmt : BitVec 2) (rs2 : RegNum) (rs1 : RegNum) (rm : BitVec 3) (rd : RegNum) (op : BitVec 7) :
    rs1F (encR4 rs3 fmt rs2 rs1 rm rd op) = rs1 := by
  apply BitVec.eq_of_getLsbD_eq
  intro i hi
  simp only [rs1F, encR4, BitVec.getLsbD_append, BitVec.getLsbD_extractLsb']
  interval_cases i <;> simp

@[simp] theorem rs2F_encR4 (rs3 : RegNum) (fmt : BitVec 2) (rs2 : RegNum) (rs1 : RegNum) (rm : BitVec 3) (rd : RegNum) (op : BitVec 7) :
    rs2F (encR4 rs3 fmt rs2 rs1 rm rd op) = rs2 := by
  apply BitVec.eq_of_getLsbD_eq
  intro i hi
  simp only [rs2F, encR4, BitVec.getLsbD_append, BitVec.getLsbD_extractLsb']
  interval_cases i <;> simp

@[simp] theorem fmtF_encR4 (rs3 : RegNum) (fmt : BitVec 2) (rs2 : RegNum) (rs1 : RegNum) (rm : BitVec 3) (rd : RegNum) (op : BitVec 7) :
    fmtF (encR4 rs3 fmt rs2 rs1 rm rd op) = fmt := by
  apply BitVec.eq_of_getLsbD_eq
  intro i hi
  simp only [fmtF, encR4, BitVec.getLsbD_append, BitVec.getLsbD_extractLsb']
  interval_cases i <;> simp

@[simp] theorem rs3F_encR4 (rs3 : RegNum) (fmt : BitVec 2) (rs2 : RegNum) (rs1 : RegNum) (rm : BitVec 3) (rd : RegNum) (op : BitVec 7) :
    rs3F (encR4 rs3 fmt rs2 rs1 rm rd op) = rs3 := by
  apply BitVec.eq_of_getLsbD_eq
  intro i hi
  simp only [rs3F, encR4, BitVec.getLsbD_append, BitVec.getLsbD_extractLsb']
  interval_cases i <;> simp

/-! ### encA -/

@[simp] theorem opcodeF_encA (f5 : BitVec 5) (aq : Bool) (rl : Bool) (rs2 : RegNum) (rs1 : RegNum) (f3 : BitVec 3) (rd : RegNum) :
    opcodeF (encA f5 aq rl rs2 rs1 f3 rd) = 0x2f#7 := by
  apply BitVec.eq_of_getLsbD_eq
  intro i hi
  simp only [opcodeF, encA, BitVec.getLsbD_append, BitVec.getLsbD_extractLsb']
  interval_cases i <;> simp

@[simp] theorem rdF_encA (f5 : BitVec 5) (aq : Bool) (rl : Bool) (rs2 : RegNum) (rs1 : RegNum) (f3 : BitVec 3) (rd : RegNum) :
    rdF (encA f5 aq rl rs2 rs1 f3 rd) = rd := by
  apply BitVec.eq_of_getLsbD_eq
  intro i hi
  simp only [rdF, encA, BitVec.getLsbD_append, BitVec.getLsbD_extractLsb']
  interval_cases i <;> simp

@[simp] theorem f3F_encA (f5 : BitVec 5) (aq : Bool) (rl : Bool) (rs2 : RegNum) (rs1 : RegNum) (f3 : BitVec 3) (rd : RegNum) :
    f3F (encA f5 aq rl rs2 rs1 f3 rd) = f3 := by
  apply BitVec.eq_of_getLsbD_eq
  intro i hi
  simp only [f3F, encA, BitVec.getLsbD_append, BitVec.getLsbD_extractLsb']
  interval_cases i <;> simp

@[simp] theorem rs1F_encA (f5 : BitVec 5) (aq : Bool) (rl : Bool) (rs2 : RegNum) (rs1 : RegNum) (f3 : BitVec 3) (rd : RegNum) :
    rs1F (encA f5 aq rl rs2 rs1 f3 rd) = rs1 := by
  apply BitVec.eq_of_getLsbD_eq
  intro i hi
  simp only [rs1F, encA, BitVec.getLsbD_append, BitVec.getLsbD_extractLsb']
  interval_cases i <;> simp

@[simp] theorem rs2F_encA (f5 : BitVec 5) (aq : Bool) (rl : Bool) (rs2 : RegNum) (rs1 : RegNum) (f3 : BitVec 3) (rd : RegNum) :
    rs2F (encA f5 aq rl rs2 rs1 f3 rd) = rs2 := by
  apply BitVec.eq_of_getLsbD_eq
  intro i hi
  simp only [rs2F, encA, BitVec.getLsbD_append, BitVec.getLsbD_extractLsb']
  interval_cases i <;> simp

@[simp] theorem f5F_encA (f5 : BitVec 5) (aq : Bool) (rl : Bool) (rs2 : RegNum) (rs1 : RegNum) (f3 : BitVec 3) (rd : RegNum) :
    f5F (encA f5 aq rl rs2 rs1 f3 rd) = f5 := by
  apply BitVec.eq_of_getLsbD_eq
  intro i hi
  simp only [f5F, encA, BitVec.getLsbD_append, BitVec.getLsbD_extractLsb']
  interval_cases i <;> simp

@[simp] theorem encA_bit_26 (f5 : BitVec 5) (aq : Bool) (rl : Bool) (rs2 : RegNum) (rs1 : RegNum) (f3 : BitVec 3) (rd : RegNum) : (encA f5 aq rl rs2 rs1 f3 rd).getLsbD 26 = aq := by
  simp only [encA, BitVec.getLsbD_append, BitVec.getLsbD_ofBool]
  simp

@[simp] theorem encA_bit_25 (f5 : BitVec 5) (aq : Bool) (rl : Bool) (rs2 : RegNum) (rs1 : RegNum) (f3 : BitVec 3) (rd : RegNum) : (encA f5 aq rl rs2 rs1 f3 rd).getLsbD 25 = rl := by
  simp only [encA, BitVec.getLsbD_append, BitVec.getLsbD_ofBool]
  simp

/-! ### encCr -/

@[simp] theorem cOp_encCr (f4 : BitVec 4) (r : RegNum) (s : RegNum) (op : BitVec 2) :
    cOp (encCr f4 r s op) = op := by
  apply BitVec.eq_of_getLsbD_eq
  intro i hi
  simp only [cOp, encCr, BitVec.getLsbD_append, BitVec.getLsbD_extractLsb']
  interval_cases i <;> simp

@[simp] theorem cF3_encCr (f4 : BitVec 4) (r : RegNum) (s : RegNum) (op : BitVec 2) :
    cF3 (encCr f4 r s op) = f4.extractLsb' 1 3 := by
  apply BitVec.eq_of_getLsbD_eq
  intro i hi
  simp only [cF3, encCr, BitVec.getLsbD_append, BitVec.getLsbD_extractLsb']
  interval_cases i <;> simp

@[simp] theorem cR_encCr (f4 : BitVec 4) (r : RegNum) (s : RegNum) (op : BitVec 2) :
    cR (encCr f4 r s op) = r := by
  apply BitVec.eq_of_getLsbD_eq
  intro i hi
  simp only [cR, encCr, BitVec.getLsbD_append, BitVec.getLsbD_extractLsb']
  interval_cases i <;> simp

@[simp] theorem cS_encCr (f4 : BitVec 4) (r : RegNum) (s : RegNum) (op : BitVec 2) :
    cS (encCr f4 r s op) = s := by
  apply BitVec.eq_of_getLsbD_eq
  intro i hi
  simp only [cS, encCr, BitVec.getLsbD_append, BitVec.getLsbD_extractLsb']
  interval_cases i <;> simp

@[simp] theorem encCr_extract_12_1 (f4 : BitVec 4) (r : RegNum) (s : RegNum) (op : BitVec 2) :
    (encCr f4 r s op).extractLsb' 12 1 = f4.extractLsb' 0 1 := by
  apply BitVec.eq_of_getLsbD_eq
  intro i hi
  simp only [encCr, BitVec.getLsbD_append, BitVec.getLsbD_extractLsb']
  interval_cases i <;> simp

/-! ### encCi -/

@[simp] theorem cOp_encCi (f3 : BitVec 3) (imm : BitVec 6) (r : RegNum) (op : BitVec 2) :
    cOp (encCi f3 imm r op) = op := by
  apply BitVec.eq_of_getLsbD_eq
  intro i hi
  simp only [cOp, encCi, BitVec.getLsbD_append, BitVec.getLsbD_extractLsb']
  interval_cases i <;> simp

@[simp] theorem cF3_encCi (f3 : BitVec 3) (imm : BitVec 6) (r : RegNum) (op : BitVec 2) :
    cF3 (encCi f3 imm r op) = f3 := by
  apply BitVec.eq_of_getLsbD_eq
  intro i hi
  simp only [cF3, encCi, BitVec.getLsbD_append, BitVec.getLsbD_extractLsb']
  interval_cases i <;> simp

@[simp] theorem cR_encCi (f3 : BitVec 3) (imm : BitVec 6) (r : RegNum) (op : BitVec 2) :
    cR (encCi f3 imm r op) = r := by
  apply BitVec.eq_of_getLsbD_eq
  intro i hi
  simp only [cR, encCi, BitVec.getLsbD_append, BitVec.getLsbD_extractLsb']
  interval_cases i <;> simp

@[simp] theorem cImm6_encCi (f3 : BitVec 3) (imm : BitVec 6) (r : RegNum) (op : BitVec 2) :
    cImm6 (encCi f3 imm r op) = imm := by
  apply BitVec.eq_of_getLsbD_eq
  intro i hi
  simp only [cImm6, encCi, BitVec.getLsbD_append, BitVec.getLsbD_extractLsb']
  interval_cases i <;> simp

/-! ### encCss -/

@[simp] theorem cOp_encCss (f3 : BitVec 3) (off : BitVec 6) (rs2 : RegNum) (op : BitVec 2) :
    cOp (encCss f3 off rs2 op) = op := by
  apply BitVec.eq_of_getLsbD_eq
  intro i hi
  simp only [cOp, encCss, BitVec.getLsbD_append, BitVec.getLsbD_extractLsb']
  interval_cases i <;> simp

@[simp] theorem cF3_encCss (f3 : BitVec 3) (off : BitVec 6) (rs2 : RegNum) (op : BitVec 2) :
    cF3 (encCss f3 off rs2 op) = f3 := by
  apply BitVec.eq_of_getLsbD_eq
  intro i hi
  simp only [cF3, encCss, BitVec.getLsbD_append, BitVec.getLsbD_extractLsb']
  interval_cases i <;> simp

@[simp] theorem cS_encCss (f3 : BitVec 3) (off : BitVec 6) (rs2 : RegNum) (op : BitVec 2) :
    cS (encCss f3 off rs2 op) = rs2 := by
  apply BitVec.eq_of_getLsbD_eq
  intro i hi
  simp only [cS, encCss, BitVec.getLsbD_append, BitVec.getLsbD_extractLsb']
  interval_cases i <;> simp

@[simp] theorem cOff6_encCss (f3 : BitVec 3) (off : BitVec 6) (rs2 : RegNum) (op : BitVec 2) :
    cOff6 (encCss f3 off rs2 op) = off := by
  apply BitVec.eq_of_getLsbD_eq
  intro i hi
  simp only [cOff6, encCss, BitVec.getLsbD_append, BitVec.getLsbD_extractLsb']
  interval_cases i <;> simp

/-! ### encCiw -/

@[simp] theorem cOp_encCiw (f3 : BitVec 3) (imm : BitVec 8) (rd : CRegNum) (op : BitVec 2) :
    cOp (encCiw f3 imm rd op) = op := by
  apply BitVec.eq_of_getLsbD_eq
  intro i hi
  simp only [cOp, encCiw, BitVec.getLsbD_append, BitVec.getLsbD_extractLsb']
  interval_cases i <;> simp

@[simp] theorem cF3_encCiw (f3 : BitVec 3) (imm : BitVec 8) (rd : CRegNum) (op : BitVec 2) :
    cF3 (encCiw f3 imm rd op) = f3 := by
  apply BitVec.eq_of_getLsbD_eq
  intro i hi
  simp only [cF3, encCiw, BitVec.getLsbD_append, BitVec.getLsbD_extractLsb']
  interval_cases i <;> simp

@[simp] theorem cR2_encCiw (f3 : BitVec 3) (imm : BitVec 8) (rd : CRegNum) (op : BitVec 2) :
    cR2 (encCiw f3 imm rd op) = rd := by
  apply BitVec.eq_of_getLsbD_eq
  intro i hi
  simp only [cR2, encCiw, BitVec.getLsbD_append, BitVec.getLsbD_extractLsb']
  interval_cases i <;> simp

@[simp] theorem cImm8_encCiw (f3 : BitVec 3) (imm : BitVec 8) (rd : CRegNum) (op : BitVec 2) :
    cImm8 (encCiw f3 imm rd op) = imm := by
  apply BitVec.eq_of_getLsbD_eq
  intro i hi
  simp only [cImm8, encCiw, BitVec.getLsbD_append, BitVec.getLsbD_extractLsb']
  interval_cases i <;> simp

/-! ### encCl -/

@[simp] theorem cOp_encCl (f3 : BitVec 3) (off : BitVec 5) (rs1 : CRegNum) (r : CRegNum) (op : BitVec 2) :
    cOp (encCl f3 off rs1 r op) = op := by
  apply BitVec.eq_of_getLsbD_eq
  intro i hi
  simp only [cOp, encCl, BitVec.getLsbD_append, BitVec.getLsbD_extractLsb']
  interval_cases i <;> simp

@[simp] theorem cF3_encCl (f3 : BitVec 3) (off : BitVec 5) (rs1 : CRegNum) (r : CRegNum) (op : BitVec 2) :
    cF3 (encCl f3 off rs1 r op) = f3 := by
  apply BitVec.eq_of_getLsbD_eq
  intro i hi
  simp only [cF3, encCl, BitVec.getLsbD_append, BitVec.getLsbD_extractLsb']
  interval_cases i <;> simp

@[simp] theorem cR1_encCl (f3 : BitVec 3) (off : BitVec 5) (rs1 : CRegNum) (r : CRegNum) (op : BitVec 2) :
    cR1 (encCl f3 off rs1 r op) = rs1 := by
  apply BitVec.eq_of_getLsbD_eq
  intro i hi
  simp only [cR1, encCl, BitVec.getLsbD_append, BitVec.getLsbD_extractLsb']
  interval_cases i <;> simp

@[simp] theorem cR2_encCl (f3 : BitVec 3) (off : BitVec 5) (rs1 : CRegNum) (r : CRegNum) (op : BitVec 2) :
    cR2 (encCl f3 off rs1 r op) = r := by
  apply BitVec.eq_of_getLsbD_eq
  intro i hi
  simp only [cR2, encCl, BitVec.getLsbD_append, BitVec.getLsbD_extractLsb']
  interval_cases i <;> simp

@[simp] theorem cOff5_encCl (f3 : BitVec 3) (off : BitVec 5) (rs1 : CRegNum) (r : CRegNum) (op : BitVec 2) :
    cOff5 (encCl f3 off rs1 r op) = off := by
  apply BitVec.eq_of_getLsbD_eq
  intro i hi
  simp only [cOff5, encCl, BitVec.getLsbD_append, BitVec.getLsbD_extractLsb']
  interval_cases i <;> simp

/-! ### encCa -/

@[simp] theorem cOp_encCa (f6 : BitVec 6) (rd : CRegNum) (f2 : BitVec 2) (rs2 : CRegNum) (op : BitVec 2) :
    cOp (encCa f6 rd f2 rs2 op) = op := by
  apply BitVec.eq_of_getLsbD_eq
  intro i hi
  simp only [cOp, encCa, BitVec.getLsbD_append, BitVec.getLsbD_extractLsb']
  interval_cases i <;> simp

@[simp] theorem cF3_encCa (f6 : BitVec 6) (rd : CRegNum) (f2 : BitVec 2) (rs2 : CRegNum) (op : BitVec 2) :
    cF3 (encCa f6 rd f2 rs2 op) = f6.extractLsb' 3 3 := by
  apply BitVec.eq_of_getLsbD_eq
  intro i hi
  simp only [cF3, encCa, BitVec.getLsbD_append, BitVec.getLsbD_extractLsb']
  interval_cases i <;> simp

@[simp] theorem cR1_encCa (f6 : BitVec 6) (rd : CRegNum) (f2 : BitVec 2) (rs2 : CRegNum) (op : BitVec 2) :
    cR1 (encCa f6 rd f2 rs2 op) = rd := by
  apply BitVec.eq_of_getLsbD_eq
  intro i hi
  simp only [cR1, encCa, BitVec.getLsbD_append, BitVec.getLsbD_extractLsb']
  interval_cases i <;> simp

@[simp] theorem cR2_encCa (f6 : BitVec 6) (rd : CRegNum) (f2 : BitVec 2) (rs2 : CRegNum) (op : BitVec 2) :
    cR2 (encCa f6 rd f2 rs2 op) = rs2 := by
  apply BitVec.eq_of_getLsbD_eq
  intro i hi
  simp only [cR2, encCa, BitVec.getLsbD_append, BitVec.getLsbD_extractLsb']
  interval_cases i <;> simp

@[simp] theorem encCa_extract_12_1 (f6 : BitVec 6) (rd : CRegNum) (f2 : BitVec 2) (rs2 : CRegNum) (op : BitVec 2) :
    (encCa f6 rd f2 rs2 op).extractLsb' 12 1 = f6.extractLsb' 2 1 := by
  apply BitVec.eq_of_getLsbD_eq
  intro i hi
  simp only [encCa, BitVec.getLsbD_append, BitVec.getLsbD_extractLsb']
  interval_cases i <;> simp

@[simp] theorem encCa_extract_10_2 (f6 : BitVec 6) (rd : CRegNum) (f2 : BitVec 2) (rs2 : CRegNum) (op : BitVec 2) :
    (encCa f6 rd f2 rs2 op).extractLsb' 10 2 = f6.extractLsb' 0 2 := by
  apply BitVec.eq_of_getLsbD_eq
  intro i hi
  simp only [encCa, BitVec.getLsbD_append, BitVec.getLsbD_extractLsb']
  interval_cases i <;> simp

@[simp] theorem encCa_extract_5_2 (f6 : BitVec 6) (rd : CRegNum) (f2 : BitVec 2) (rs2 : CRegNum) (op : BitVec 2) :
    (encCa f6 rd f2 rs2 op).extractLsb' 5 2 = f2 := by
  apply BitVec.eq_of_getLsbD_eq
  intro i hi
  simp only [encCa, BitVec.getLsbD_append, BitVec.getLsbD_extractLsb']
  interval_cases i <;> simp

/-! ### encCb -/

@[simp] theorem cOp_encCb (f3 : BitVec 3) (off : BitVec 8) (rs1 : CRegNum) (op : BitVec 2) :
    cOp (encCb f3 off rs1 op) = op := by
  apply BitVec.eq_of_getLsbD_eq
  intro i hi
  simp only [cOp, encCb, BitVec.getLsbD_append, BitVec.getLsbD_extractLsb']
  interval_cases i <;> simp

@[simp] theorem cF3_encCb (f3 : BitVec 3) (off : BitVec 8) (rs1 : CRegNum) (op : BitVec 2) :
    cF3 (encCb f3 off rs1 op) = f3 := by
  apply BitVec.eq_of_getLsbD_eq
  intro i hi
  simp only [cF3, encCb, BitVec.getLsbD_append, BitVec.getLsbD_extractLsb']
  interval_cases i <;> simp

@[simp] theorem cR1_encCb (f3 : BitVec 3) (off : BitVec 8) (rs1 : CRegNum) (op : BitVec 2) :
    cR1 (encCb f3 off rs1 op) = rs1 := by
  apply BitVec.eq_of_getLsbD_eq
  intro i hi
  simp only [cR1, encCb, BitVec.getLsbD_append, BitVec.getLsbD_extractLsb']
  interval_cases i <;> simp

@[simp] theorem cOff8_encCb (f3 : BitVec 3) (off : BitVec 8) (rs1 : CRegNum) (op : BitVec 2) :
    cOff8 (encCb f3 off rs1 op) = off := by
  apply BitVec.eq_of_getLsbD_eq
  intro i hi
  simp only [cOff8, encCb, BitVec.getLsbD_append, BitVec.getLsbD_extractLsb']
  interval_cases i <;> simp

/-! ### encCs6 -/

@[simp] theorem cOp_encCs6 (f3 : BitVec 3) (f2 : BitVec 2) (imm : BitVec 6) (rd : CRegNum) (op : BitVec 2) :
    cOp (encCs6 f3 f2 imm rd op) = op := by
  apply BitVec.eq_of_getLsbD_eq
  intro i hi
  simp only [cOp, encCs6, BitVec.getLsbD_append, BitVec.getLsbD_extractLsb']
  interval_cases i <;> simp

@[simp] theorem cF3_encCs6 (f3 : BitVec 3) (f2 : BitVec 2) (imm : BitVec 6) (rd : CRegNum) (op : BitVec 2) :
    cF3 (encCs6 f3 f2 imm rd op) = f3 := by
  apply BitVec.eq_of_getLsbD_eq
  intro i hi
  simp only [cF3, encCs6, BitVec.getLsbD_append, BitVec.getLsbD_extractLsb']
  interval_cases i <;> simp

@[simp] theorem cR1_encCs6 (f3 : BitVec 3) (f2 : BitVec 2) (imm : BitVec 6) (rd : CRegNum) (op : BitVec 2) :
    cR1 (encCs6 f3 f2 imm rd op) = rd := by
  apply BitVec.eq_of_getLsbD_eq
  intro i hi
  simp only [cR1, encCs6, BitVec.getLsbD_append, BitVec.getLsbD_extractLsb']
  interval_cases i <;> simp

@[simp] theorem cImm6_encCs6 (f3 : BitVec 3) (f2 : BitVec 2) (imm : BitVec 6) (rd : CRegNum) (op : BitVec 2) :
    cImm6 (encCs6 f3 f2 imm rd op) = imm := by
  apply BitVec.eq_of_getLsbD_eq
  intro i hi
  simp only [cImm6, encCs6, BitVec.getLsbD_append, BitVec.getLsbD_extractLsb']
  interval_cases i <;> simp

@[simp] theorem encCs6_extract_10_2 (f3 : BitVec 3) (f2 : BitVec 2) (imm : BitVec 6) (rd : CRegNum) (op : BitVec 2) :
    (encCs6 f3 f2 imm rd op).extractLsb' 10 2 = f2 := by
  apply BitVec.eq_of_getLsbD_eq
  intro i hi
  simp only [encCs6, BitVec.getLsbD_append, BitVec.getLsbD_extractLsb']
  interval_cases i <;> simp

/-! ### encCj -/

@[simp] theorem cOp_encCj (f3 : BitVec 3) (off : BitVec 11) (op : BitVec 2) :
    cOp (encCj f3 off op) = op := by
  apply BitVec.eq_of_getLsbD_eq
  intro i hi
  simp only [cOp, encCj, BitVec.getLsbD_append, BitVec.getLsbD_extractLsb']
  interval_cases i <;> simp

@[simp] theorem cF3_encCj (f3 : BitVec 3) (off : BitVec 11) (op : BitVec 2) :
    cF3 (encCj f3 off op) = f3 := by
  apply BitVec.eq_of_getLsbD_eq
  intro i hi
  simp only [cF3, encCj, BitVec.getLsbD_append, BitVec.getLsbD_extractLsb']
  interval_cases i <;> simp

@[simp] theorem cOff11_encCj (f3 : BitVec 3) (off : BitVec 11) (op : BitVec 2) :
    cOff11 (encCj f3 off op) = off := by
  apply BitVec.eq_of_getLsbD_eq
  intro i hi
  simp only [cOff11, encCj, BitVec.getLsbD_append, BitVec.getLsbD_extractLsb']
  interval_cases i <;> simp

/-- A bit by its index, in the form `simp` normalises to. -/
@[simp] theorem encA_get_26 (f5 : BitVec 5) (aq rl : Bool) (rs2 rs1 : RegNum) (f3 : BitVec 3) (rd : RegNum) :
    (encA f5 aq rl rs2 rs1 f3 rd)[26] = aq := encA_bit_26 f5 aq rl rs2 rs1 f3 rd

@[simp] theorem encA_get_25 (f5 : BitVec 5) (aq rl : Bool) (rs2 rs1 : RegNum) (f3 : BitVec 3) (rd : RegNum) :
    (encA f5 aq rl rs2 rs1 f3 rd)[25] = rl := encA_bit_25 f5 aq rl rs2 rs1 f3 rd

/-! ### Parts of a twelve-bit field -/

@[simp] theorem shift_field_high (a b : BitVec 6) : (a ++ b : BitVec 12).extractLsb' 6 6 = a := by
  apply BitVec.eq_of_getLsbD_eq
  intro i hi
  simp only [BitVec.getLsbD_append, BitVec.getLsbD_extractLsb']
  interval_cases i <;> simp

@[simp] theorem shift_field_low (a b : BitVec 6) : (a ++ b : BitVec 12).extractLsb' 0 6 = b := by
  apply BitVec.eq_of_getLsbD_eq
  intro i hi
  simp only [BitVec.getLsbD_append, BitVec.getLsbD_extractLsb']
  interval_cases i <;> simp

@[simp] theorem fence_field_fm (a b c : BitVec 4) : (a ++ b ++ c : BitVec 12).extractLsb' 8 4 = a := by
  apply BitVec.eq_of_getLsbD_eq
  intro i hi
  simp only [BitVec.getLsbD_append, BitVec.getLsbD_extractLsb']
  interval_cases i <;> simp

@[simp] theorem fence_field_pred (a b c : BitVec 4) : (a ++ b ++ c : BitVec 12).extractLsb' 4 4 = b := by
  apply BitVec.eq_of_getLsbD_eq
  intro i hi
  simp only [BitVec.getLsbD_append, BitVec.getLsbD_extractLsb']
  interval_cases i <;> simp

@[simp] theorem fence_field_succ (a b c : BitVec 4) : (a ++ b ++ c : BitVec 12).extractLsb' 0 4 = c := by
  apply BitVec.eq_of_getLsbD_eq
  intro i hi
  simp only [BitVec.getLsbD_append, BitVec.getLsbD_extractLsb']
  interval_cases i <;> simp

/-- The FENCE word that is FENCE.TSO's (R323). -/
theorem fence_field_tso (a b c : BitVec 4) :
    (a ++ b ++ c : BitVec 12) = 0x833#12 ↔ a = 8#4 ∧ b = 3#4 ∧ c = 3#4 := by
  constructor
  · intro h
    have h1 := fence_field_fm a b c
    have h2 := fence_field_pred a b c
    have h3 := fence_field_succ a b c
    rw [h] at h1 h2 h3
    exact ⟨h1.symm, h2.symm, h3.symm⟩
  · rintro ⟨rfl, rfl, rfl⟩
    rfl

/-! ### Scrambled immediates -/

@[simp] theorem addi4spnOf_addi4spnField (v : BitVec 8) : addi4spnOf (addi4spnField v) = v := by
  apply BitVec.eq_of_getLsbD_eq
  intro i hi
  simp only [addi4spnOf, addi4spnField, BitVec.getLsbD_append, BitVec.getLsbD_extractLsb']
  interval_cases i <;> simp

@[simp] theorem addi4spnField_addi4spnOf (v : BitVec 8) : addi4spnField (addi4spnOf v) = v := by
  apply BitVec.eq_of_getLsbD_eq
  intro i hi
  simp only [addi4spnOf, addi4spnField, BitVec.getLsbD_append, BitVec.getLsbD_extractLsb']
  interval_cases i <;> simp

@[simp] theorem offWOf_offWField (v : BitVec 5) : offWOf (offWField v) = v := by
  apply BitVec.eq_of_getLsbD_eq
  intro i hi
  simp only [offWOf, offWField, BitVec.getLsbD_append, BitVec.getLsbD_extractLsb']
  interval_cases i <;> simp

@[simp] theorem offWField_offWOf (v : BitVec 5) : offWField (offWOf v) = v := by
  apply BitVec.eq_of_getLsbD_eq
  intro i hi
  simp only [offWOf, offWField, BitVec.getLsbD_append, BitVec.getLsbD_extractLsb']
  interval_cases i <;> simp

@[simp] theorem offDOf_offDField (v : BitVec 5) : offDOf (offDField v) = v := by
  apply BitVec.eq_of_getLsbD_eq
  intro i hi
  simp only [offDOf, offDField, BitVec.getLsbD_append, BitVec.getLsbD_extractLsb']
  interval_cases i <;> simp

@[simp] theorem offDField_offDOf (v : BitVec 5) : offDField (offDOf v) = v := by
  apply BitVec.eq_of_getLsbD_eq
  intro i hi
  simp only [offDOf, offDField, BitVec.getLsbD_append, BitVec.getLsbD_extractLsb']
  interval_cases i <;> simp

@[simp] theorem offQOf_offQField (v : BitVec 5) : offQOf (offQField v) = v := by
  apply BitVec.eq_of_getLsbD_eq
  intro i hi
  simp only [offQOf, offQField, BitVec.getLsbD_append, BitVec.getLsbD_extractLsb']
  interval_cases i <;> simp

@[simp] theorem offQField_offQOf (v : BitVec 5) : offQField (offQOf v) = v := by
  apply BitVec.eq_of_getLsbD_eq
  intro i hi
  simp only [offQOf, offQField, BitVec.getLsbD_append, BitVec.getLsbD_extractLsb']
  interval_cases i <;> simp

@[simp] theorem spWOf_spWField (v : BitVec 6) : spWOf (spWField v) = v := by
  apply BitVec.eq_of_getLsbD_eq
  intro i hi
  simp only [spWOf, spWField, BitVec.getLsbD_append, BitVec.getLsbD_extractLsb']
  interval_cases i <;> simp

@[simp] theorem spWField_spWOf (v : BitVec 6) : spWField (spWOf v) = v := by
  apply BitVec.eq_of_getLsbD_eq
  intro i hi
  simp only [spWOf, spWField, BitVec.getLsbD_append, BitVec.getLsbD_extractLsb']
  interval_cases i <;> simp

@[simp] theorem spDOf_spDField (v : BitVec 6) : spDOf (spDField v) = v := by
  apply BitVec.eq_of_getLsbD_eq
  intro i hi
  simp only [spDOf, spDField, BitVec.getLsbD_append, BitVec.getLsbD_extractLsb']
  interval_cases i <;> simp

@[simp] theorem spDField_spDOf (v : BitVec 6) : spDField (spDOf v) = v := by
  apply BitVec.eq_of_getLsbD_eq
  intro i hi
  simp only [spDOf, spDField, BitVec.getLsbD_append, BitVec.getLsbD_extractLsb']
  interval_cases i <;> simp

@[simp] theorem spQOf_spQField (v : BitVec 6) : spQOf (spQField v) = v := by
  apply BitVec.eq_of_getLsbD_eq
  intro i hi
  simp only [spQOf, spQField, BitVec.getLsbD_append, BitVec.getLsbD_extractLsb']
  interval_cases i <;> simp

@[simp] theorem spQField_spQOf (v : BitVec 6) : spQField (spQOf v) = v := by
  apply BitVec.eq_of_getLsbD_eq
  intro i hi
  simp only [spQOf, spQField, BitVec.getLsbD_append, BitVec.getLsbD_extractLsb']
  interval_cases i <;> simp

@[simp] theorem ssWOf_ssWField (v : BitVec 6) : ssWOf (ssWField v) = v := by
  apply BitVec.eq_of_getLsbD_eq
  intro i hi
  simp only [ssWOf, ssWField, BitVec.getLsbD_append, BitVec.getLsbD_extractLsb']
  interval_cases i <;> simp

@[simp] theorem ssWField_ssWOf (v : BitVec 6) : ssWField (ssWOf v) = v := by
  apply BitVec.eq_of_getLsbD_eq
  intro i hi
  simp only [ssWOf, ssWField, BitVec.getLsbD_append, BitVec.getLsbD_extractLsb']
  interval_cases i <;> simp

@[simp] theorem ssDOf_ssDField (v : BitVec 6) : ssDOf (ssDField v) = v := by
  apply BitVec.eq_of_getLsbD_eq
  intro i hi
  simp only [ssDOf, ssDField, BitVec.getLsbD_append, BitVec.getLsbD_extractLsb']
  interval_cases i <;> simp

@[simp] theorem ssDField_ssDOf (v : BitVec 6) : ssDField (ssDOf v) = v := by
  apply BitVec.eq_of_getLsbD_eq
  intro i hi
  simp only [ssDOf, ssDField, BitVec.getLsbD_append, BitVec.getLsbD_extractLsb']
  interval_cases i <;> simp

@[simp] theorem ssQOf_ssQField (v : BitVec 6) : ssQOf (ssQField v) = v := by
  apply BitVec.eq_of_getLsbD_eq
  intro i hi
  simp only [ssQOf, ssQField, BitVec.getLsbD_append, BitVec.getLsbD_extractLsb']
  interval_cases i <;> simp

@[simp] theorem ssQField_ssQOf (v : BitVec 6) : ssQField (ssQOf v) = v := by
  apply BitVec.eq_of_getLsbD_eq
  intro i hi
  simp only [ssQOf, ssQField, BitVec.getLsbD_append, BitVec.getLsbD_extractLsb']
  interval_cases i <;> simp

@[simp] theorem addi16spOf_addi16spField (v : BitVec 6) : addi16spOf (addi16spField v) = v := by
  apply BitVec.eq_of_getLsbD_eq
  intro i hi
  simp only [addi16spOf, addi16spField, BitVec.getLsbD_append, BitVec.getLsbD_extractLsb']
  interval_cases i <;> simp

@[simp] theorem addi16spField_addi16spOf (v : BitVec 6) : addi16spField (addi16spOf v) = v := by
  apply BitVec.eq_of_getLsbD_eq
  intro i hi
  simp only [addi16spOf, addi16spField, BitVec.getLsbD_append, BitVec.getLsbD_extractLsb']
  interval_cases i <;> simp

@[simp] theorem cjOf_cjField (v : BitVec 11) : cjOf (cjField v) = v := by
  apply BitVec.eq_of_getLsbD_eq
  intro i hi
  simp only [cjOf, cjField, BitVec.getLsbD_append, BitVec.getLsbD_extractLsb']
  interval_cases i <;> simp

@[simp] theorem cjField_cjOf (v : BitVec 11) : cjField (cjOf v) = v := by
  apply BitVec.eq_of_getLsbD_eq
  intro i hi
  simp only [cjOf, cjField, BitVec.getLsbD_append, BitVec.getLsbD_extractLsb']
  interval_cases i <;> simp

@[simp] theorem cbOf_cbField (v : BitVec 8) : cbOf (cbField v) = v := by
  apply BitVec.eq_of_getLsbD_eq
  intro i hi
  simp only [cbOf, cbField, BitVec.getLsbD_append, BitVec.getLsbD_extractLsb']
  interval_cases i <;> simp

@[simp] theorem cbField_cbOf (v : BitVec 8) : cbField (cbOf v) = v := by
  apply BitVec.eq_of_getLsbD_eq
  intro i hi
  simp only [cbOf, cbField, BitVec.getLsbD_append, BitVec.getLsbD_extractLsb']
  interval_cases i <;> simp

end Sys2Proof
end

