-- ==== Sys2Proof/Laws/State.lean ====
section
/-!
SUPPORT. One lemma per field per update of the state: what an update leaves as it was, so that no proof unfolds a
record update.
-/
namespace Sys2Proof.Machine

/-! ### wx -/

@[simp] theorem State.wx_cfg (s : State) (r : RegNum) (v : Word) : (s.wx r v).cfg = s.cfg := by
  unfold State.wx; split <;> rfl

@[simp] theorem State.wx_pc (s : State) (r : RegNum) (v : Word) : (s.wx r v).pc = s.pc := by
  unfold State.wx; split <;> rfl

@[simp] theorem State.wx_f (s : State) (r : RegNum) (v : Word) : (s.wx r v).f = s.f := by
  unfold State.wx; split <;> rfl

@[simp] theorem State.wx_fcsr (s : State) (r : RegNum) (v : Word) : (s.wx r v).fcsr = s.fcsr := by
  unfold State.wx; split <;> rfl

@[simp] theorem State.wx_cycle (s : State) (r : RegNum) (v : Word) : (s.wx r v).cycle = s.cycle := by
  unfold State.wx; split <;> rfl

@[simp] theorem State.wx_time (s : State) (r : RegNum) (v : Word) : (s.wx r v).time = s.time := by
  unfold State.wx; split <;> rfl

@[simp] theorem State.wx_instret (s : State) (r : RegNum) (v : Word) : (s.wx r v).instret = s.instret := by
  unfold State.wx; split <;> rfl

@[simp] theorem State.wx_hpm (s : State) (r : RegNum) (v : Word) : (s.wx r v).hpm = s.hpm := by
  unfold State.wx; split <;> rfl

@[simp] theorem State.wx_reservation (s : State) (r : RegNum) (v : Word) : (s.wx r v).reservation = s.reservation := by
  unfold State.wx; split <;> rfl

@[simp] theorem State.wx_mem (s : State) (r : RegNum) (v : Word) : (s.wx r v).mem = s.mem := by
  unfold State.wx; split <;> rfl

@[simp] theorem State.wx_stale (s : State) (r : RegNum) (v : Word) : (s.wx r v).stale = s.stale := by
  unfold State.wx; split <;> rfl

@[simp] theorem State.wx_io (s : State) (r : RegNum) (v : Word) : (s.wx r v).io = s.io := by
  unfold State.wx; split <;> rfl

@[simp] theorem State.wx_status (s : State) (r : RegNum) (v : Word) : (s.wx r v).status = s.status := by
  unfold State.wx; split <;> rfl

@[simp] theorem State.wx_draws (s : State) (r : RegNum) (v : Word) : (s.wx r v).draws = s.draws := by
  unfold State.wx; split <;> rfl

@[simp] theorem State.wx_hart (s : State) (r : RegNum) (v : Word) : (s.wx r v).hart = s.hart := by
  unfold State.wx; split <;> rfl


/-! ### wf -/

@[simp] theorem State.wf_cfg (s : State) (n : Nat) (r : RegNum) (v : FWord) : (s.wf n r v).cfg = s.cfg := rfl

@[simp] theorem State.wf_x (s : State) (n : Nat) (r : RegNum) (v : FWord) : (s.wf n r v).x = s.x := rfl

@[simp] theorem State.wf_pc (s : State) (n : Nat) (r : RegNum) (v : FWord) : (s.wf n r v).pc = s.pc := rfl

@[simp] theorem State.wf_fcsr (s : State) (n : Nat) (r : RegNum) (v : FWord) : (s.wf n r v).fcsr = s.fcsr := rfl

@[simp] theorem State.wf_cycle (s : State) (n : Nat) (r : RegNum) (v : FWord) : (s.wf n r v).cycle = s.cycle := rfl

@[simp] theorem State.wf_time (s : State) (n : Nat) (r : RegNum) (v : FWord) : (s.wf n r v).time = s.time := rfl

@[simp] theorem State.wf_instret (s : State) (n : Nat) (r : RegNum) (v : FWord) : (s.wf n r v).instret = s.instret := rfl

@[simp] theorem State.wf_hpm (s : State) (n : Nat) (r : RegNum) (v : FWord) : (s.wf n r v).hpm = s.hpm := rfl

@[simp] theorem State.wf_reservation (s : State) (n : Nat) (r : RegNum) (v : FWord) : (s.wf n r v).reservation = s.reservation := rfl

@[simp] theorem State.wf_mem (s : State) (n : Nat) (r : RegNum) (v : FWord) : (s.wf n r v).mem = s.mem := rfl

@[simp] theorem State.wf_stale (s : State) (n : Nat) (r : RegNum) (v : FWord) : (s.wf n r v).stale = s.stale := rfl

@[simp] theorem State.wf_io (s : State) (n : Nat) (r : RegNum) (v : FWord) : (s.wf n r v).io = s.io := rfl

@[simp] theorem State.wf_status (s : State) (n : Nat) (r : RegNum) (v : FWord) : (s.wf n r v).status = s.status := rfl

@[simp] theorem State.wf_draws (s : State) (n : Nat) (r : RegNum) (v : FWord) : (s.wf n r v).draws = s.draws := rfl

@[simp] theorem State.wf_hart (s : State) (n : Nat) (r : RegNum) (v : FWord) : (s.wf n r v).hart = s.hart := rfl


/-! ### fwrite -/

@[simp] theorem State.fwrite_cfg (s : State) (t : Fmt) (r : RegNum) (v : Nat) : (s.fwrite t r v).cfg = s.cfg := rfl

@[simp] theorem State.fwrite_x (s : State) (t : Fmt) (r : RegNum) (v : Nat) : (s.fwrite t r v).x = s.x := rfl

@[simp] theorem State.fwrite_pc (s : State) (t : Fmt) (r : RegNum) (v : Nat) : (s.fwrite t r v).pc = s.pc := rfl

@[simp] theorem State.fwrite_fcsr (s : State) (t : Fmt) (r : RegNum) (v : Nat) : (s.fwrite t r v).fcsr = s.fcsr := rfl

@[simp] theorem State.fwrite_cycle (s : State) (t : Fmt) (r : RegNum) (v : Nat) : (s.fwrite t r v).cycle = s.cycle := rfl

@[simp] theorem State.fwrite_time (s : State) (t : Fmt) (r : RegNum) (v : Nat) : (s.fwrite t r v).time = s.time := rfl

@[simp] theorem State.fwrite_instret (s : State) (t : Fmt) (r : RegNum) (v : Nat) : (s.fwrite t r v).instret = s.instret := rfl

@[simp] theorem State.fwrite_hpm (s : State) (t : Fmt) (r : RegNum) (v : Nat) : (s.fwrite t r v).hpm = s.hpm := rfl

@[simp] theorem State.fwrite_reservation (s : State) (t : Fmt) (r : RegNum) (v : Nat) : (s.fwrite t r v).reservation = s.reservation := rfl

@[simp] theorem State.fwrite_mem (s : State) (t : Fmt) (r : RegNum) (v : Nat) : (s.fwrite t r v).mem = s.mem := rfl

@[simp] theorem State.fwrite_stale (s : State) (t : Fmt) (r : RegNum) (v : Nat) : (s.fwrite t r v).stale = s.stale := rfl

@[simp] theorem State.fwrite_io (s : State) (t : Fmt) (r : RegNum) (v : Nat) : (s.fwrite t r v).io = s.io := rfl

@[simp] theorem State.fwrite_status (s : State) (t : Fmt) (r : RegNum) (v : Nat) : (s.fwrite t r v).status = s.status := rfl

@[simp] theorem State.fwrite_draws (s : State) (t : Fmt) (r : RegNum) (v : Nat) : (s.fwrite t r v).draws = s.draws := rfl

@[simp] theorem State.fwrite_hart (s : State) (t : Fmt) (r : RegNum) (v : Nat) : (s.fwrite t r v).hart = s.hart := rfl


/-! ### retire -/

@[simp] theorem State.retire_cfg (s : State) (n : Nat) : (s.retire n).cfg = s.cfg := rfl

@[simp] theorem State.retire_x (s : State) (n : Nat) : (s.retire n).x = s.x := rfl

@[simp] theorem State.retire_f (s : State) (n : Nat) : (s.retire n).f = s.f := rfl

@[simp] theorem State.retire_fcsr (s : State) (n : Nat) : (s.retire n).fcsr = s.fcsr := rfl

@[simp] theorem State.retire_cycle (s : State) (n : Nat) : (s.retire n).cycle = s.cycle := rfl

@[simp] theorem State.retire_time (s : State) (n : Nat) : (s.retire n).time = s.time := rfl

@[simp] theorem State.retire_hpm (s : State) (n : Nat) : (s.retire n).hpm = s.hpm := rfl

@[simp] theorem State.retire_reservation (s : State) (n : Nat) : (s.retire n).reservation = s.reservation := rfl

@[simp] theorem State.retire_mem (s : State) (n : Nat) : (s.retire n).mem = s.mem := rfl

@[simp] theorem State.retire_stale (s : State) (n : Nat) : (s.retire n).stale = s.stale := rfl

@[simp] theorem State.retire_io (s : State) (n : Nat) : (s.retire n).io = s.io := rfl

@[simp] theorem State.retire_status (s : State) (n : Nat) : (s.retire n).status = s.status := rfl

@[simp] theorem State.retire_draws (s : State) (n : Nat) : (s.retire n).draws = s.draws := rfl

@[simp] theorem State.retire_hart (s : State) (n : Nat) : (s.retire n).hart = s.hart := rfl


/-! ### jump -/

@[simp] theorem State.jump_cfg (s : State) (a : Word) : (s.jump a).cfg = s.cfg := rfl

@[simp] theorem State.jump_x (s : State) (a : Word) : (s.jump a).x = s.x := rfl

@[simp] theorem State.jump_f (s : State) (a : Word) : (s.jump a).f = s.f := rfl

@[simp] theorem State.jump_fcsr (s : State) (a : Word) : (s.jump a).fcsr = s.fcsr := rfl

@[simp] theorem State.jump_cycle (s : State) (a : Word) : (s.jump a).cycle = s.cycle := rfl

@[simp] theorem State.jump_time (s : State) (a : Word) : (s.jump a).time = s.time := rfl

@[simp] theorem State.jump_hpm (s : State) (a : Word) : (s.jump a).hpm = s.hpm := rfl

@[simp] theorem State.jump_reservation (s : State) (a : Word) : (s.jump a).reservation = s.reservation := rfl

@[simp] theorem State.jump_mem (s : State) (a : Word) : (s.jump a).mem = s.mem := rfl

@[simp] theorem State.jump_stale (s : State) (a : Word) : (s.jump a).stale = s.stale := rfl

@[simp] theorem State.jump_io (s : State) (a : Word) : (s.jump a).io = s.io := rfl

@[simp] theorem State.jump_status (s : State) (a : Word) : (s.jump a).status = s.status := rfl

@[simp] theorem State.jump_draws (s : State) (a : Word) : (s.jump a).draws = s.draws := rfl

@[simp] theorem State.jump_hart (s : State) (a : Word) : (s.jump a).hart = s.hart := rfl


/-! ### setFcsr -/

@[simp] theorem State.setFcsr_cfg (s : State) (m : BitVec 3) (fl : FpFlags) : (s.setFcsr m fl).cfg = s.cfg := rfl

@[simp] theorem State.setFcsr_x (s : State) (m : BitVec 3) (fl : FpFlags) : (s.setFcsr m fl).x = s.x := rfl

@[simp] theorem State.setFcsr_pc (s : State) (m : BitVec 3) (fl : FpFlags) : (s.setFcsr m fl).pc = s.pc := rfl

@[simp] theorem State.setFcsr_f (s : State) (m : BitVec 3) (fl : FpFlags) : (s.setFcsr m fl).f = s.f := rfl

@[simp] theorem State.setFcsr_cycle (s : State) (m : BitVec 3) (fl : FpFlags) : (s.setFcsr m fl).cycle = s.cycle := rfl

@[simp] theorem State.setFcsr_time (s : State) (m : BitVec 3) (fl : FpFlags) : (s.setFcsr m fl).time = s.time := rfl

@[simp] theorem State.setFcsr_instret (s : State) (m : BitVec 3) (fl : FpFlags) : (s.setFcsr m fl).instret = s.instret := rfl

@[simp] theorem State.setFcsr_hpm (s : State) (m : BitVec 3) (fl : FpFlags) : (s.setFcsr m fl).hpm = s.hpm := rfl

@[simp] theorem State.setFcsr_reservation (s : State) (m : BitVec 3) (fl : FpFlags) : (s.setFcsr m fl).reservation = s.reservation := rfl

@[simp] theorem State.setFcsr_mem (s : State) (m : BitVec 3) (fl : FpFlags) : (s.setFcsr m fl).mem = s.mem := rfl

@[simp] theorem State.setFcsr_stale (s : State) (m : BitVec 3) (fl : FpFlags) : (s.setFcsr m fl).stale = s.stale := rfl

@[simp] theorem State.setFcsr_io (s : State) (m : BitVec 3) (fl : FpFlags) : (s.setFcsr m fl).io = s.io := rfl

@[simp] theorem State.setFcsr_status (s : State) (m : BitVec 3) (fl : FpFlags) : (s.setFcsr m fl).status = s.status := rfl

@[simp] theorem State.setFcsr_draws (s : State) (m : BitVec 3) (fl : FpFlags) : (s.setFcsr m fl).draws = s.draws := rfl

@[simp] theorem State.setFcsr_hart (s : State) (m : BitVec 3) (fl : FpFlags) : (s.setFcsr m fl).hart = s.hart := rfl


/-! ### accrue -/

@[simp] theorem State.accrue_cfg (s : State) (fl : FpFlags) : (s.accrue fl).cfg = s.cfg := rfl

@[simp] theorem State.accrue_x (s : State) (fl : FpFlags) : (s.accrue fl).x = s.x := rfl

@[simp] theorem State.accrue_pc (s : State) (fl : FpFlags) : (s.accrue fl).pc = s.pc := rfl

@[simp] theorem State.accrue_f (s : State) (fl : FpFlags) : (s.accrue fl).f = s.f := rfl

@[simp] theorem State.accrue_cycle (s : State) (fl : FpFlags) : (s.accrue fl).cycle = s.cycle := rfl

@[simp] theorem State.accrue_time (s : State) (fl : FpFlags) : (s.accrue fl).time = s.time := rfl

@[simp] theorem State.accrue_instret (s : State) (fl : FpFlags) : (s.accrue fl).instret = s.instret := rfl

@[simp] theorem State.accrue_hpm (s : State) (fl : FpFlags) : (s.accrue fl).hpm = s.hpm := rfl

@[simp] theorem State.accrue_reservation (s : State) (fl : FpFlags) : (s.accrue fl).reservation = s.reservation := rfl

@[simp] theorem State.accrue_mem (s : State) (fl : FpFlags) : (s.accrue fl).mem = s.mem := rfl

@[simp] theorem State.accrue_stale (s : State) (fl : FpFlags) : (s.accrue fl).stale = s.stale := rfl

@[simp] theorem State.accrue_io (s : State) (fl : FpFlags) : (s.accrue fl).io = s.io := rfl

@[simp] theorem State.accrue_status (s : State) (fl : FpFlags) : (s.accrue fl).status = s.status := rfl

@[simp] theorem State.accrue_draws (s : State) (fl : FpFlags) : (s.accrue fl).draws = s.draws := rfl

@[simp] theorem State.accrue_hart (s : State) (fl : FpFlags) : (s.accrue fl).hart = s.hart := rfl


/-! ### csrWrite -/

@[simp] theorem State.csrWrite_cfg (s : State) (c : Csr) (v : Word) : (s.csrWrite c v).cfg = s.cfg := by
  cases c <;> rfl

@[simp] theorem State.csrWrite_x (s : State) (c : Csr) (v : Word) : (s.csrWrite c v).x = s.x := by
  cases c <;> rfl

@[simp] theorem State.csrWrite_pc (s : State) (c : Csr) (v : Word) : (s.csrWrite c v).pc = s.pc := by
  cases c <;> rfl

@[simp] theorem State.csrWrite_f (s : State) (c : Csr) (v : Word) : (s.csrWrite c v).f = s.f := by
  cases c <;> rfl

@[simp] theorem State.csrWrite_cycle (s : State) (c : Csr) (v : Word) : (s.csrWrite c v).cycle = s.cycle := by
  cases c <;> rfl

@[simp] theorem State.csrWrite_time (s : State) (c : Csr) (v : Word) : (s.csrWrite c v).time = s.time := by
  cases c <;> rfl

@[simp] theorem State.csrWrite_instret (s : State) (c : Csr) (v : Word) : (s.csrWrite c v).instret = s.instret := by
  cases c <;> rfl

@[simp] theorem State.csrWrite_hpm (s : State) (c : Csr) (v : Word) : (s.csrWrite c v).hpm = s.hpm := by
  cases c <;> rfl

@[simp] theorem State.csrWrite_reservation (s : State) (c : Csr) (v : Word) : (s.csrWrite c v).reservation = s.reservation := by
  cases c <;> rfl

@[simp] theorem State.csrWrite_mem (s : State) (c : Csr) (v : Word) : (s.csrWrite c v).mem = s.mem := by
  cases c <;> rfl

@[simp] theorem State.csrWrite_stale (s : State) (c : Csr) (v : Word) : (s.csrWrite c v).stale = s.stale := by
  cases c <;> rfl

@[simp] theorem State.csrWrite_io (s : State) (c : Csr) (v : Word) : (s.csrWrite c v).io = s.io := by
  cases c <;> rfl

@[simp] theorem State.csrWrite_status (s : State) (c : Csr) (v : Word) : (s.csrWrite c v).status = s.status := by
  cases c <;> rfl

@[simp] theorem State.csrWrite_draws (s : State) (c : Csr) (v : Word) : (s.csrWrite c v).draws = s.draws := by
  cases c <;> rfl

@[simp] theorem State.csrWrite_hart (s : State) (c : Csr) (v : Word) : (s.csrWrite c v).hart = s.hart := by
  cases c <;> rfl


/-! ### reserve -/

@[simp] theorem State.reserve_cfg (s : State) (n : Nat) (a : Word) : (s.reserve n a).cfg = s.cfg := rfl

@[simp] theorem State.reserve_x (s : State) (n : Nat) (a : Word) : (s.reserve n a).x = s.x := rfl

@[simp] theorem State.reserve_pc (s : State) (n : Nat) (a : Word) : (s.reserve n a).pc = s.pc := rfl

@[simp] theorem State.reserve_f (s : State) (n : Nat) (a : Word) : (s.reserve n a).f = s.f := rfl

@[simp] theorem State.reserve_fcsr (s : State) (n : Nat) (a : Word) : (s.reserve n a).fcsr = s.fcsr := rfl

@[simp] theorem State.reserve_cycle (s : State) (n : Nat) (a : Word) : (s.reserve n a).cycle = s.cycle := rfl

@[simp] theorem State.reserve_time (s : State) (n : Nat) (a : Word) : (s.reserve n a).time = s.time := rfl

@[simp] theorem State.reserve_instret (s : State) (n : Nat) (a : Word) : (s.reserve n a).instret = s.instret := rfl

@[simp] theorem State.reserve_hpm (s : State) (n : Nat) (a : Word) : (s.reserve n a).hpm = s.hpm := rfl

@[simp] theorem State.reserve_mem (s : State) (n : Nat) (a : Word) : (s.reserve n a).mem = s.mem := rfl

@[simp] theorem State.reserve_stale (s : State) (n : Nat) (a : Word) : (s.reserve n a).stale = s.stale := rfl

@[simp] theorem State.reserve_io (s : State) (n : Nat) (a : Word) : (s.reserve n a).io = s.io := rfl

@[simp] theorem State.reserve_status (s : State) (n : Nat) (a : Word) : (s.reserve n a).status = s.status := rfl

@[simp] theorem State.reserve_draws (s : State) (n : Nat) (a : Word) : (s.reserve n a).draws = s.draws := rfl

@[simp] theorem State.reserve_hart (s : State) (n : Nat) (a : Word) : (s.reserve n a).hart = s.hart := rfl


/-! ### noteIo -/

@[simp] theorem State.noteIo_cfg (s : State) (k : IoKind) (n : Nat) (a : Word) (v : Nat) : (s.noteIo k n a v).cfg = s.cfg := by
  unfold State.noteIo; split <;> rfl

@[simp] theorem State.noteIo_x (s : State) (k : IoKind) (n : Nat) (a : Word) (v : Nat) : (s.noteIo k n a v).x = s.x := by
  unfold State.noteIo; split <;> rfl

@[simp] theorem State.noteIo_pc (s : State) (k : IoKind) (n : Nat) (a : Word) (v : Nat) : (s.noteIo k n a v).pc = s.pc := by
  unfold State.noteIo; split <;> rfl

@[simp] theorem State.noteIo_f (s : State) (k : IoKind) (n : Nat) (a : Word) (v : Nat) : (s.noteIo k n a v).f = s.f := by
  unfold State.noteIo; split <;> rfl

@[simp] theorem State.noteIo_fcsr (s : State) (k : IoKind) (n : Nat) (a : Word) (v : Nat) : (s.noteIo k n a v).fcsr = s.fcsr := by
  unfold State.noteIo; split <;> rfl

@[simp] theorem State.noteIo_cycle (s : State) (k : IoKind) (n : Nat) (a : Word) (v : Nat) : (s.noteIo k n a v).cycle = s.cycle := by
  unfold State.noteIo; split <;> rfl

@[simp] theorem State.noteIo_time (s : State) (k : IoKind) (n : Nat) (a : Word) (v : Nat) : (s.noteIo k n a v).time = s.time := by
  unfold State.noteIo; split <;> rfl

@[simp] theorem State.noteIo_instret (s : State) (k : IoKind) (n : Nat) (a : Word) (v : Nat) : (s.noteIo k n a v).instret = s.instret := by
  unfold State.noteIo; split <;> rfl

@[simp] theorem State.noteIo_hpm (s : State) (k : IoKind) (n : Nat) (a : Word) (v : Nat) : (s.noteIo k n a v).hpm = s.hpm := by
  unfold State.noteIo; split <;> rfl

@[simp] theorem State.noteIo_reservation (s : State) (k : IoKind) (n : Nat) (a : Word) (v : Nat) : (s.noteIo k n a v).reservation = s.reservation := by
  unfold State.noteIo; split <;> rfl

@[simp] theorem State.noteIo_mem (s : State) (k : IoKind) (n : Nat) (a : Word) (v : Nat) : (s.noteIo k n a v).mem = s.mem := by
  unfold State.noteIo; split <;> rfl

@[simp] theorem State.noteIo_stale (s : State) (k : IoKind) (n : Nat) (a : Word) (v : Nat) : (s.noteIo k n a v).stale = s.stale := by
  unfold State.noteIo; split <;> rfl

@[simp] theorem State.noteIo_status (s : State) (k : IoKind) (n : Nat) (a : Word) (v : Nat) : (s.noteIo k n a v).status = s.status := by
  unfold State.noteIo; split <;> rfl

@[simp] theorem State.noteIo_draws (s : State) (k : IoKind) (n : Nat) (a : Word) (v : Nat) : (s.noteIo k n a v).draws = s.draws := by
  unfold State.noteIo; split <;> rfl

@[simp] theorem State.noteIo_hart (s : State) (k : IoKind) (n : Nat) (a : Word) (v : Nat) : (s.noteIo k n a v).hart = s.hart := by
  unfold State.noteIo; split <;> rfl


/-! ### storeByte -/

@[simp] theorem State.storeByte_cfg (s : State) (a : Nat) (b : Byte) : (s.storeByte a b).cfg = s.cfg := rfl

@[simp] theorem State.storeByte_x (s : State) (a : Nat) (b : Byte) : (s.storeByte a b).x = s.x := rfl

@[simp] theorem State.storeByte_pc (s : State) (a : Nat) (b : Byte) : (s.storeByte a b).pc = s.pc := rfl

@[simp] theorem State.storeByte_f (s : State) (a : Nat) (b : Byte) : (s.storeByte a b).f = s.f := rfl

@[simp] theorem State.storeByte_fcsr (s : State) (a : Nat) (b : Byte) : (s.storeByte a b).fcsr = s.fcsr := rfl

@[simp] theorem State.storeByte_cycle (s : State) (a : Nat) (b : Byte) : (s.storeByte a b).cycle = s.cycle := rfl

@[simp] theorem State.storeByte_time (s : State) (a : Nat) (b : Byte) : (s.storeByte a b).time = s.time := rfl

@[simp] theorem State.storeByte_instret (s : State) (a : Nat) (b : Byte) : (s.storeByte a b).instret = s.instret := rfl

@[simp] theorem State.storeByte_hpm (s : State) (a : Nat) (b : Byte) : (s.storeByte a b).hpm = s.hpm := rfl

@[simp] theorem State.storeByte_reservation (s : State) (a : Nat) (b : Byte) : (s.storeByte a b).reservation = s.reservation := rfl

@[simp] theorem State.storeByte_io (s : State) (a : Nat) (b : Byte) : (s.storeByte a b).io = s.io := rfl

@[simp] theorem State.storeByte_status (s : State) (a : Nat) (b : Byte) : (s.storeByte a b).status = s.status := rfl

@[simp] theorem State.storeByte_draws (s : State) (a : Nat) (b : Byte) : (s.storeByte a b).draws = s.draws := rfl

@[simp] theorem State.storeByte_hart (s : State) (a : Nat) (b : Byte) : (s.storeByte a b).hart = s.hart := rfl


/-! ### storeBytes -/

@[simp] theorem State.storeBytes_cfg (s : State) (l : List (Nat × Byte)) : (s.storeBytes l).cfg = s.cfg := by
  induction l generalizing s with
  | nil => rfl
  | cons c l ih =>
    obtain ⟨a, b⟩ := c
    rw [State.storeBytes, ih]
    split <;> rfl

@[simp] theorem State.storeBytes_x (s : State) (l : List (Nat × Byte)) : (s.storeBytes l).x = s.x := by
  induction l generalizing s with
  | nil => rfl
  | cons c l ih =>
    obtain ⟨a, b⟩ := c
    rw [State.storeBytes, ih]
    split <;> rfl

@[simp] theorem State.storeBytes_pc (s : State) (l : List (Nat × Byte)) : (s.storeBytes l).pc = s.pc := by
  induction l generalizing s with
  | nil => rfl
  | cons c l ih =>
    obtain ⟨a, b⟩ := c
    rw [State.storeBytes, ih]
    split <;> rfl

@[simp] theorem State.storeBytes_f (s : State) (l : List (Nat × Byte)) : (s.storeBytes l).f = s.f := by
  induction l generalizing s with
  | nil => rfl
  | cons c l ih =>
    obtain ⟨a, b⟩ := c
    rw [State.storeBytes, ih]
    split <;> rfl

@[simp] theorem State.storeBytes_fcsr (s : State) (l : List (Nat × Byte)) : (s.storeBytes l).fcsr = s.fcsr := by
  induction l generalizing s with
  | nil => rfl
  | cons c l ih =>
    obtain ⟨a, b⟩ := c
    rw [State.storeBytes, ih]
    split <;> rfl

@[simp] theorem State.storeBytes_cycle (s : State) (l : List (Nat × Byte)) : (s.storeBytes l).cycle = s.cycle := by
  induction l generalizing s with
  | nil => rfl
  | cons c l ih =>
    obtain ⟨a, b⟩ := c
    rw [State.storeBytes, ih]
    split <;> rfl

@[simp] theorem State.storeBytes_time (s : State) (l : List (Nat × Byte)) : (s.storeBytes l).time = s.time := by
  induction l generalizing s with
  | nil => rfl
  | cons c l ih =>
    obtain ⟨a, b⟩ := c
    rw [State.storeBytes, ih]
    split <;> rfl

@[simp] theorem State.storeBytes_instret (s : State) (l : List (Nat × Byte)) : (s.storeBytes l).instret = s.instret := by
  induction l generalizing s with
  | nil => rfl
  | cons c l ih =>
    obtain ⟨a, b⟩ := c
    rw [State.storeBytes, ih]
    split <;> rfl

@[simp] theorem State.storeBytes_hpm (s : State) (l : List (Nat × Byte)) : (s.storeBytes l).hpm = s.hpm := by
  induction l generalizing s with
  | nil => rfl
  | cons c l ih =>
    obtain ⟨a, b⟩ := c
    rw [State.storeBytes, ih]
    split <;> rfl

@[simp] theorem State.storeBytes_reservation (s : State) (l : List (Nat × Byte)) : (s.storeBytes l).reservation = s.reservation := by
  induction l generalizing s with
  | nil => rfl
  | cons c l ih =>
    obtain ⟨a, b⟩ := c
    rw [State.storeBytes, ih]
    split <;> rfl

@[simp] theorem State.storeBytes_io (s : State) (l : List (Nat × Byte)) : (s.storeBytes l).io = s.io := by
  induction l generalizing s with
  | nil => rfl
  | cons c l ih =>
    obtain ⟨a, b⟩ := c
    rw [State.storeBytes, ih]
    split <;> rfl

@[simp] theorem State.storeBytes_status (s : State) (l : List (Nat × Byte)) : (s.storeBytes l).status = s.status := by
  induction l generalizing s with
  | nil => rfl
  | cons c l ih =>
    obtain ⟨a, b⟩ := c
    rw [State.storeBytes, ih]
    split <;> rfl

@[simp] theorem State.storeBytes_draws (s : State) (l : List (Nat × Byte)) : (s.storeBytes l).draws = s.draws := by
  induction l generalizing s with
  | nil => rfl
  | cons c l ih =>
    obtain ⟨a, b⟩ := c
    rw [State.storeBytes, ih]
    split <;> rfl

@[simp] theorem State.storeBytes_hart (s : State) (l : List (Nat × Byte)) : (s.storeBytes l).hart = s.hart := by
  induction l generalizing s with
  | nil => rfl
  | cons c l ih =>
    obtain ⟨a, b⟩ := c
    rw [State.storeBytes, ih]
    split <;> rfl


/-! ### memWrite -/

@[simp] theorem State.memWrite_cfg (s : State) (n : Nat) (a : Word) (v : Nat) : (s.memWrite n a v).cfg = s.cfg := by
  simp [State.memWrite]

@[simp] theorem State.memWrite_x (s : State) (n : Nat) (a : Word) (v : Nat) : (s.memWrite n a v).x = s.x := by
  simp [State.memWrite]

@[simp] theorem State.memWrite_pc (s : State) (n : Nat) (a : Word) (v : Nat) : (s.memWrite n a v).pc = s.pc := by
  simp [State.memWrite]

@[simp] theorem State.memWrite_f (s : State) (n : Nat) (a : Word) (v : Nat) : (s.memWrite n a v).f = s.f := by
  simp [State.memWrite]

@[simp] theorem State.memWrite_fcsr (s : State) (n : Nat) (a : Word) (v : Nat) : (s.memWrite n a v).fcsr = s.fcsr := by
  simp [State.memWrite]

@[simp] theorem State.memWrite_cycle (s : State) (n : Nat) (a : Word) (v : Nat) : (s.memWrite n a v).cycle = s.cycle := by
  simp [State.memWrite]

@[simp] theorem State.memWrite_time (s : State) (n : Nat) (a : Word) (v : Nat) : (s.memWrite n a v).time = s.time := by
  simp [State.memWrite]

@[simp] theorem State.memWrite_instret (s : State) (n : Nat) (a : Word) (v : Nat) : (s.memWrite n a v).instret = s.instret := by
  simp [State.memWrite]

@[simp] theorem State.memWrite_hpm (s : State) (n : Nat) (a : Word) (v : Nat) : (s.memWrite n a v).hpm = s.hpm := by
  simp [State.memWrite]

@[simp] theorem State.memWrite_reservation (s : State) (n : Nat) (a : Word) (v : Nat) : (s.memWrite n a v).reservation = s.reservation := by
  simp [State.memWrite]

@[simp] theorem State.memWrite_status (s : State) (n : Nat) (a : Word) (v : Nat) : (s.memWrite n a v).status = s.status := by
  simp [State.memWrite]

@[simp] theorem State.memWrite_draws (s : State) (n : Nat) (a : Word) (v : Nat) : (s.memWrite n a v).draws = s.draws := by
  simp [State.memWrite]

@[simp] theorem State.memWrite_hart (s : State) (n : Nat) (a : Word) (v : Nat) : (s.memWrite n a v).hart = s.hart := by
  simp [State.memWrite]


/-! ### terminate -/

@[simp] theorem State.terminate_cfg (s : State) (r : Report) : (s.terminate r).cfg = s.cfg := rfl

@[simp] theorem State.terminate_x (s : State) (r : Report) : (s.terminate r).x = s.x := rfl

@[simp] theorem State.terminate_pc (s : State) (r : Report) : (s.terminate r).pc = s.pc := rfl

@[simp] theorem State.terminate_f (s : State) (r : Report) : (s.terminate r).f = s.f := rfl

@[simp] theorem State.terminate_fcsr (s : State) (r : Report) : (s.terminate r).fcsr = s.fcsr := rfl

@[simp] theorem State.terminate_cycle (s : State) (r : Report) : (s.terminate r).cycle = s.cycle := rfl

@[simp] theorem State.terminate_time (s : State) (r : Report) : (s.terminate r).time = s.time := rfl

@[simp] theorem State.terminate_instret (s : State) (r : Report) : (s.terminate r).instret = s.instret := rfl

@[simp] theorem State.terminate_hpm (s : State) (r : Report) : (s.terminate r).hpm = s.hpm := rfl

@[simp] theorem State.terminate_reservation (s : State) (r : Report) : (s.terminate r).reservation = s.reservation := rfl

@[simp] theorem State.terminate_mem (s : State) (r : Report) : (s.terminate r).mem = s.mem := rfl

@[simp] theorem State.terminate_stale (s : State) (r : Report) : (s.terminate r).stale = s.stale := rfl

@[simp] theorem State.terminate_io (s : State) (r : Report) : (s.terminate r).io = s.io := rfl

@[simp] theorem State.terminate_draws (s : State) (r : Report) : (s.terminate r).draws = s.draws := rfl

@[simp] theorem State.terminate_hart (s : State) (r : Report) : (s.terminate r).hart = s.hart := rfl


/-! ### tick -/

@[simp] theorem State.tick_cfg (s : State) : (s.tick).cfg = s.cfg := rfl

@[simp] theorem State.tick_x (s : State) : (s.tick).x = s.x := rfl

@[simp] theorem State.tick_pc (s : State) : (s.tick).pc = s.pc := rfl

@[simp] theorem State.tick_f (s : State) : (s.tick).f = s.f := rfl

@[simp] theorem State.tick_fcsr (s : State) : (s.tick).fcsr = s.fcsr := rfl

@[simp] theorem State.tick_instret (s : State) : (s.tick).instret = s.instret := rfl

@[simp] theorem State.tick_reservation (s : State) : (s.tick).reservation = s.reservation := rfl

@[simp] theorem State.tick_mem (s : State) : (s.tick).mem = s.mem := rfl

@[simp] theorem State.tick_stale (s : State) : (s.tick).stale = s.stale := rfl

@[simp] theorem State.tick_io (s : State) : (s.tick).io = s.io := rfl

@[simp] theorem State.tick_status (s : State) : (s.tick).status = s.status := rfl

@[simp] theorem State.tick_hart (s : State) : (s.tick).hart = s.hart := rfl


/-! ### The fields an update does change -/

@[simp] theorem State.retire_pc (s : State) (n : Nat) :
    (s.retire n).pc = lowBits s.xlen (s.pc + BitVec.ofNat 64 n) := rfl
@[simp] theorem State.retire_instret (s : State) (n : Nat) : (s.retire n).instret = s.instret + 1 := rfl
@[simp] theorem State.jump_pc (s : State) (a : Word) : (s.jump a).pc = lowBits s.xlen a := rfl
@[simp] theorem State.jump_instret (s : State) (a : Word) : (s.jump a).instret = s.instret + 1 := rfl
@[simp] theorem State.terminate_status (s : State) (r : Report) : (s.terminate r).status = .terminated r := rfl
@[simp] theorem State.tick_draws (s : State) : s.tick.draws = s.draws + 1 := rfl
@[simp] theorem State.storeByte_mem (s : State) (a : Nat) (b : Byte) : (s.storeByte a b).mem = writeByte s.mem a b := rfl
@[simp] theorem State.reserve_reservation (s : State) (n : Nat) (a : Word) :
    (s.reserve n a).reservation =
      some { bytes := reservationSet s.cfg.reservationPolicy a.toNat n, lrAddr := a.toNat, lrSize := n } := rfl

/-! ### What reads only the registers and the configuration -/

@[simp] theorem State.wx_xlen (s : State) (r : RegNum) (v : Word) : (s.wx r v).xlen = s.xlen := by
  simp [State.xlen]

@[simp] theorem State.wx_flen (s : State) (r : RegNum) (v : Word) : (s.wx r v).flen = s.flen := by
  simp [State.flen]

@[simp] theorem State.wf_xlen (s : State) (n : Nat) (r : RegNum) (v : FWord) : (s.wf n r v).xlen = s.xlen := by
  simp [State.xlen]

@[simp] theorem State.wf_flen (s : State) (n : Nat) (r : RegNum) (v : FWord) : (s.wf n r v).flen = s.flen := by
  simp [State.flen]

@[simp] theorem State.wf_rx (s : State) (n : Nat) (r : RegNum) (v : FWord) (r' : RegNum) : (s.wf n r v).rx r' = s.rx r' := by
  simp [State.rx, State.xlen]

@[simp] theorem State.fwrite_xlen (s : State) (t : Fmt) (r : RegNum) (v : Nat) : (s.fwrite t r v).xlen = s.xlen := by
  simp [State.xlen]

@[simp] theorem State.fwrite_flen (s : State) (t : Fmt) (r : RegNum) (v : Nat) : (s.fwrite t r v).flen = s.flen := by
  simp [State.flen]

@[simp] theorem State.fwrite_rx (s : State) (t : Fmt) (r : RegNum) (v : Nat) (r' : RegNum) : (s.fwrite t r v).rx r' = s.rx r' := by
  simp [State.rx, State.xlen]

@[simp] theorem State.retire_xlen (s : State) (n : Nat) : (s.retire n).xlen = s.xlen := by
  simp [State.xlen]

@[simp] theorem State.retire_flen (s : State) (n : Nat) : (s.retire n).flen = s.flen := by
  simp [State.flen]

@[simp] theorem State.retire_rx (s : State) (n : Nat) (r' : RegNum) : (s.retire n).rx r' = s.rx r' := by
  simp [State.rx, State.xlen]

@[simp] theorem State.jump_xlen (s : State) (a : Word) : (s.jump a).xlen = s.xlen := by
  simp [State.xlen]

@[simp] theorem State.jump_flen (s : State) (a : Word) : (s.jump a).flen = s.flen := by
  simp [State.flen]

@[simp] theorem State.jump_rx (s : State) (a : Word) (r' : RegNum) : (s.jump a).rx r' = s.rx r' := by
  simp [State.rx, State.xlen]

@[simp] theorem State.setFcsr_xlen (s : State) (m : BitVec 3) (fl : FpFlags) : (s.setFcsr m fl).xlen = s.xlen := by
  simp [State.xlen]

@[simp] theorem State.setFcsr_flen (s : State) (m : BitVec 3) (fl : FpFlags) : (s.setFcsr m fl).flen = s.flen := by
  simp [State.flen]

@[simp] theorem State.setFcsr_rx (s : State) (m : BitVec 3) (fl : FpFlags) (r' : RegNum) : (s.setFcsr m fl).rx r' = s.rx r' := by
  simp [State.rx, State.xlen]

@[simp] theorem State.accrue_xlen (s : State) (fl : FpFlags) : (s.accrue fl).xlen = s.xlen := by
  simp [State.xlen]

@[simp] theorem State.accrue_flen (s : State) (fl : FpFlags) : (s.accrue fl).flen = s.flen := by
  simp [State.flen]

@[simp] theorem State.accrue_rx (s : State) (fl : FpFlags) (r' : RegNum) : (s.accrue fl).rx r' = s.rx r' := by
  simp [State.rx, State.xlen]

@[simp] theorem State.csrWrite_xlen (s : State) (c : Csr) (v : Word) : (s.csrWrite c v).xlen = s.xlen := by
  simp [State.xlen]

@[simp] theorem State.csrWrite_flen (s : State) (c : Csr) (v : Word) : (s.csrWrite c v).flen = s.flen := by
  simp [State.flen]

@[simp] theorem State.csrWrite_rx (s : State) (c : Csr) (v : Word) (r' : RegNum) : (s.csrWrite c v).rx r' = s.rx r' := by
  simp [State.rx, State.xlen]

@[simp] theorem State.reserve_xlen (s : State) (n : Nat) (a : Word) : (s.reserve n a).xlen = s.xlen := by
  simp [State.xlen]

@[simp] theorem State.reserve_flen (s : State) (n : Nat) (a : Word) : (s.reserve n a).flen = s.flen := by
  simp [State.flen]

@[simp] theorem State.reserve_rx (s : State) (n : Nat) (a : Word) (r' : RegNum) : (s.reserve n a).rx r' = s.rx r' := by
  simp [State.rx, State.xlen]

@[simp] theorem State.noteIo_xlen (s : State) (k : IoKind) (n : Nat) (a : Word) (v : Nat) : (s.noteIo k n a v).xlen = s.xlen := by
  simp [State.xlen]

@[simp] theorem State.noteIo_flen (s : State) (k : IoKind) (n : Nat) (a : Word) (v : Nat) : (s.noteIo k n a v).flen = s.flen := by
  simp [State.flen]

@[simp] theorem State.noteIo_rx (s : State) (k : IoKind) (n : Nat) (a : Word) (v : Nat) (r' : RegNum) : (s.noteIo k n a v).rx r' = s.rx r' := by
  simp [State.rx, State.xlen]

@[simp] theorem State.storeByte_xlen (s : State) (a : Nat) (b : Byte) : (s.storeByte a b).xlen = s.xlen := by
  simp [State.xlen]

@[simp] theorem State.storeByte_flen (s : State) (a : Nat) (b : Byte) : (s.storeByte a b).flen = s.flen := by
  simp [State.flen]

@[simp] theorem State.storeByte_rx (s : State) (a : Nat) (b : Byte) (r' : RegNum) : (s.storeByte a b).rx r' = s.rx r' := by
  simp [State.rx, State.xlen]

@[simp] theorem State.storeBytes_xlen (s : State) (l : List (Nat × Byte)) : (s.storeBytes l).xlen = s.xlen := by
  simp [State.xlen]

@[simp] theorem State.storeBytes_flen (s : State) (l : List (Nat × Byte)) : (s.storeBytes l).flen = s.flen := by
  simp [State.flen]

@[simp] theorem State.storeBytes_rx (s : State) (l : List (Nat × Byte)) (r' : RegNum) : (s.storeBytes l).rx r' = s.rx r' := by
  simp [State.rx, State.xlen]

@[simp] theorem State.memWrite_xlen (s : State) (n : Nat) (a : Word) (v : Nat) : (s.memWrite n a v).xlen = s.xlen := by
  simp [State.xlen]

@[simp] theorem State.memWrite_flen (s : State) (n : Nat) (a : Word) (v : Nat) : (s.memWrite n a v).flen = s.flen := by
  simp [State.flen]

@[simp] theorem State.memWrite_rx (s : State) (n : Nat) (a : Word) (v : Nat) (r' : RegNum) : (s.memWrite n a v).rx r' = s.rx r' := by
  simp [State.rx, State.xlen]

@[simp] theorem State.terminate_xlen (s : State) (r : Report) : (s.terminate r).xlen = s.xlen := by
  simp [State.xlen]

@[simp] theorem State.terminate_flen (s : State) (r : Report) : (s.terminate r).flen = s.flen := by
  simp [State.flen]

@[simp] theorem State.terminate_rx (s : State) (r : Report) (r' : RegNum) : (s.terminate r).rx r' = s.rx r' := by
  simp [State.rx, State.xlen]

@[simp] theorem State.tick_xlen (s : State) : (s.tick).xlen = s.xlen := by
  simp [State.xlen]

@[simp] theorem State.tick_flen (s : State) : (s.tick).flen = s.flen := by
  simp [State.flen]

@[simp] theorem State.tick_rx (s : State) (r' : RegNum) : (s.tick).rx r' = s.rx r' := by
  simp [State.rx, State.xlen]


end Sys2Proof.Machine
end

