-- ==== Sys2Proof/Laws/Ops.lean ====
section
/-!
SUPPORT. For each shared operation, once, everything it can answer: the provers cite these and unfold no operation.
-/
namespace Sys2Proof.Machine

/-! ### Exceptions -/

@[simp] theorem raise_eq (s : State) (c : Cause) : raise s c = .next (s.takeTrap c) := rfl

/-- A trap either terminates the machine, nothing else changing, or resumes it with what the environment changed. -/
theorem State.takeTrap_cases (s : State) (c : Cause) :
    (∃ r, environmentAnswer s (s.trapRecord c) = .terminate r ∧ s.takeTrap c = s.terminate r) ∨
      ∃ e, environmentAnswer s (s.trapRecord c) = .resume e ∧ s.takeTrap c = s.resume e := by
  unfold State.takeTrap
  cases h : environmentAnswer s (s.trapRecord c) with
  | terminate r => exact .inl ⟨r, rfl, rfl⟩
  | resume e => exact .inr ⟨e, rfl, rfl⟩

/-- The policy of the environment for a cause (R805). -/
theorem environmentAnswer_of_terminate (s : State) (t : TrapRecord) (h1 : s.cfg.envTrap = .terminate)
    (h2 : s.cfg.envCall = .terminate) (h3 : s.cfg.envBreak = .terminate) :
    environmentAnswer s t = .terminate (.record t) := by
  cases h : t.cause <;> simp [environmentAnswer, h, h1, h2, h3]

theorem State.takeTrap_of_terminate (s : State) (c : Cause) (h1 : s.cfg.envTrap = .terminate)
    (h2 : s.cfg.envCall = .terminate) (h3 : s.cfg.envBreak = .terminate) :
    s.takeTrap c = s.terminate (.record (s.trapRecord c)) := by
  simp [State.takeTrap, environmentAnswer_of_terminate s _ h1 h2 h3]

/-! ### Access checks (R100) -/

theorem alignmentCheck_of_aligned (s : State) (k : Access) (n : Nat) (a : Word) (h : alignedTo n a = true) :
    alignmentCheck s k n a = none := by simp [alignmentCheck, h]

theorem accessCheck_eq_none_iff (s : State) (k : Access) (n : Nat) (a : Word) :
    accessCheck s k n a = none ↔ alignmentCheck s k n a = none ∧ accessible s.cfg k n a = true := by
  unfold accessCheck
  cases alignmentCheck s k n a with
  | some c => simp
  | none => by_cases h : accessible s.cfg k n a = true <;> simp [h]

/-- An LR or SC that passes the checks is naturally aligned (R433). -/
theorem aligned_of_accessCheck_lr (s : State) (n : Nat) (a : Word) (h : accessCheck s .lr n a = none) :
    alignedTo n a = true := by
  rw [accessCheck_eq_none_iff] at h
  by_contra hn
  have hf : alignedTo n a = false := by simpa using hn
  simp [alignmentCheck, hf] at h

/-! ### Results -/

theorem finishX_eq (s : State) (len : Nat) (rd : RegNum) (v : Word) :
    finishX s len rd v = .next ((s.wx rd v).retire len) := rfl

theorem finishF_eq (s : State) (t : Fmt) (rd : RegNum) (r : FpResult) :
    finishF s t rd r = .next (((s.fwrite t rd r.bits).accrue r.flags).retire 4) := rfl

theorem finishFX_eq (s : State) (rd : RegNum) (v : Word) (fl : FpFlags) :
    finishFX s rd v fl = .next (((s.wx rd v).accrue fl).retire 4) := rfl

/-- An instruction with a rounding mode runs with the effective one, or is illegal where there is none (R531). -/
theorem withRm_cases (s : State) (i : Instr) (rm : BitVec 3) (k : Rm → Host.Outcome State Fault Refusal) :
    (∃ m, effectiveRm s rm = some m ∧ withRm s i rm k = k m) ∨
      (effectiveRm s rm = none ∧ withRm s i rm k = .next (s.takeTrap (.illegalInstruction (encode i)))) := by
  unfold withRm
  cases h : effectiveRm s rm with
  | some m => exact .inl ⟨m, rfl, rfl⟩
  | none => exact .inr ⟨rfl, rfl⟩

theorem withRm_of_some (s : State) (i : Instr) {rm : BitVec 3} {m : Rm} (k : Rm → Host.Outcome State Fault Refusal)
    (h : effectiveRm s rm = some m) : withRm s i rm k = k m := by simp [withRm, h]

/-! ### Loads and stores -/

theorem loadThen_cases (s : State) (ac : Access) (n : Nat) (a : Word) (k : Nat → State → State) :
    (∃ c, accessCheck s ac n a = some c ∧ loadThen s ac n a k = .next (s.takeTrap c)) ∨
      (accessCheck s ac n a = none ∧
        loadThen s ac n a k = .next (k (s.memRead n a) (s.noteIo .read n a (s.memRead n a)))) := by
  unfold loadThen
  cases h : accessCheck s ac n a with
  | some c => exact .inl ⟨c, rfl, rfl⟩
  | none => exact .inr ⟨rfl, rfl⟩

theorem loadThen_of_ok {s : State} {ac : Access} {n : Nat} {a : Word} (k : Nat → State → State)
    (h : accessCheck s ac n a = none) :
    loadThen s ac n a k = .next (k (s.memRead n a) (s.noteIo .read n a (s.memRead n a))) := by
  simp [loadThen, h]

theorem storeThen_cases (s : State) (n : Nat) (a : Word) (v : Nat) (k : State → State) :
    (∃ c, accessCheck s .store n a = some c ∧ storeThen s n a v k = .next (s.takeTrap c)) ∨
      (accessCheck s .store n a = none ∧ storeThen s n a v k = .next (k (s.memWrite n a v))) := by
  unfold storeThen
  cases h : accessCheck s .store n a with
  | some c => exact .inl ⟨c, rfl, rfl⟩
  | none => exact .inr ⟨rfl, rfl⟩

theorem storeThen_of_ok {s : State} {n : Nat} {a : Word} (v : Nat) (k : State → State)
    (h : accessCheck s .store n a = none) : storeThen s n a v k = .next (k (s.memWrite n a v)) := by
  simp [storeThen, h]

/-! ### Jumps and branches -/

theorem jumpOrRaise_cases (s t : State) (target : Word) :
    (s.cfg.ext.c = false ∧ alignedTo 4 (lowBits s.xlen target) = false ∧
        jumpOrRaise s t target = .next (s.takeTrap (.instructionAddressMisaligned (lowBits s.xlen target)))) ∨
      ((s.cfg.ext.c = true ∨ alignedTo 4 (lowBits s.xlen target) = true) ∧
        jumpOrRaise s t target = .next (t.jump target)) := by
  unfold jumpOrRaise
  cases hc : s.cfg.ext.c <;> cases ha : alignedTo 4 (lowBits s.xlen target) <;> simp

theorem branchIf_cases (s : State) (len : Nat) (taken : Bool) (off : Word) :
    (taken = false ∧ branchIf s len taken off = .next (s.retire len)) ∨
      (taken = true ∧ branchIf s len taken off = jumpOrRaise s s (s.pc + off)) := by
  cases taken
  · exact .inl ⟨rfl, rfl⟩
  · exact .inr ⟨rfl, rfl⟩

/-! ### Atomics -/

theorem loadReserved_cases (s : State) (n : Nat) (rd : RegNum) (a : Word) :
    (∃ c, accessCheck s .lr n a = some c ∧ loadReserved s n rd a = .next (s.takeTrap c)) ∨
      (accessCheck s .lr n a = none ∧
        loadReserved s n rd a = .next
          ((((s.noteIo .read n a (s.memRead n a)).wx rd (loadSigned n (s.memRead n a))).reserve n a).retire 4)) :=
  loadThen_cases s .lr n a _

/-- An SC traps, succeeds, or fails; after a success or a failure no reservation is held (R436, R439). -/
theorem storeConditional_cases (s : State) (n : Nat) (rd rs2 : RegNum) (a : Word) :
    (∃ c, accessCheck s .sc n a = some c ∧ storeConditional s n rd rs2 a = .next (s.takeTrap c)) ∨
      (accessCheck s .sc n a = none ∧ scSucceeds s n a = true ∧
        storeConditional s n rd rs2 a = .next
          (({ (s.memWrite n a (lowBytes n (s.rx rs2).toNat)).wx rd 0 with reservation := none } : State).retire 4)) ∨
      (accessCheck s .sc n a = none ∧ scSucceeds s n a = false ∧
        storeConditional s n rd rs2 a = .next (({ s.wx rd 1 with reservation := none } : State).retire 4)) := by
  unfold storeConditional
  cases h : accessCheck s .sc n a with
  | some c => exact .inl ⟨c, rfl, rfl⟩
  | none =>
    cases hs : scSucceeds s n a
    · exact .inr (.inr ⟨rfl, rfl, by simp⟩)
    · exact .inr (.inl ⟨rfl, rfl, by simp⟩)

theorem atomicOp_cases (s : State) (op : AmoOp) (n : Nat) (rd rs2 : RegNum) (a : Word) :
    (∃ c, accessCheck s (.amo op) n a = some c ∧ atomicOp s op n rd rs2 a = .next (s.takeTrap c)) ∨
      (accessCheck s (.amo op) n a = none ∧
        atomicOp s op n rd rs2 a = .next
          ((((s.noteIo .read n a (s.memRead n a)).memWrite n a
            (amoValue op n (s.memRead n a) (lowBytes n (s.rx rs2).toNat))).wx rd
              (loadSigned n (s.memRead n a))).retire 4)) :=
  loadThen_cases s (.amo op) n a _

/-! ### CSRs (R482) -/

theorem csrAccess_cases (s : State) (i : Instr) (rd : RegNum) (csr : BitVec 12) (reads writes : Bool)
    (new : Word → Word) :
    ((csrAt s.cfg csr = none ∨ ∃ c, csrAt s.cfg csr = some c ∧ writes = true ∧ c.readOnly = true) ∧
        csrAccess s i rd csr reads writes new = .next (s.takeTrap (.illegalInstruction (encode i)))) ∨
      ∃ c, csrAt s.cfg csr = some c ∧ (writes = false ∨ c.readOnly = false) ∧
        csrAccess s i rd csr reads writes new = .next
          ((if reads then
              (if writes then s.csrWrite c (lowBits s.xlen (new (s.csrRead c))) else s).wx rd (s.csrRead c)
            else if writes then s.csrWrite c (lowBits s.xlen (new (s.csrRead c))) else s).retire 4) := by
  unfold csrAccess
  cases h : csrAt s.cfg csr with
  | none => exact .inl ⟨.inl rfl, rfl⟩
  | some c =>
    cases hw : writes
    · exact .inr ⟨c, rfl, .inl rfl, by simp⟩
    · cases hr : c.readOnly
      · exact .inr ⟨c, rfl, .inr hr, by simp [hr]⟩
      · exact .inl ⟨.inr ⟨c, rfl, rfl, hr⟩, by simp [hr, raiseIllegal]⟩

/-! ### The step -/

/-- What a step can do: stop, or fetch, decode and execute, and then let time pass. -/
theorem step_cases (s : State) :
    ((∃ r, s.status = .terminated r) ∧ step s = .fault .terminated) ∨
      (s.status = .running ∧ configLegal s.cfg = false ∧ step s = .refused .configuration) ∨
      (s.status = .running ∧ configLegal s.cfg = true ∧ pcAligned s = false ∧ step s = .refused .misalignedPc) ∨
      (s.status = .running ∧ configLegal s.cfg = true ∧ pcAligned s = true ∧ step s = afterStep (fetchAndExec s)) := by
  unfold step
  cases hs : s.status with
  | terminated r => exact .inl ⟨⟨r, rfl⟩, rfl⟩
  | running =>
    cases hc : configLegal s.cfg
    · exact .inr (.inl ⟨rfl, rfl, by simp⟩)
    · cases hp : pcAligned s
      · exact .inr (.inr (.inl ⟨rfl, rfl, rfl, by simp⟩))
      · exact .inr (.inr (.inr ⟨rfl, rfl, rfl, by simp⟩))

theorem fetchAndExec_cases (s : State) :
    (∃ c, s.fetch = .error c ∧ fetchAndExec s = .next (s.takeTrap c)) ∨
      (∃ code, s.fetch = .ok code ∧ decode s.cfg code = none ∧
        fetchAndExec s = .next (s.takeTrap (.illegalInstruction code))) ∨
      ∃ code i, s.fetch = .ok code ∧ decode s.cfg code = some i ∧ fetchAndExec s = exec i s := by
  unfold fetchAndExec execFetched
  cases h : s.fetch with
  | error c => exact .inl ⟨c, rfl, rfl⟩
  | ok code =>
    cases hd : decode s.cfg code with
    | none => exact .inr (.inl ⟨code, rfl, hd, by simp [hd, raise]⟩)
    | some i => exact .inr (.inr ⟨code, i, rfl, hd, by simp [hd]⟩)

/-- A clock never decreases, and advances as far as it can (R501). -/
theorem clockAfter_toNat (v : BitVec 64) (n : Nat) : (clockAfter v n).toNat = min (v.toNat + n) (2 ^ 64 - 1) := by
  simp only [clockAfter, BitVec.toNat_ofNat]
  exact Nat.mod_eq_of_lt (by omega)

theorem le_clockAfter (v : BitVec 64) (n : Nat) : v ≤ clockAfter v n := by
  have := v.isLt
  simp only [BitVec.le_def, clockAfter_toNat]
  omega

/-- What decodes is a row of this configuration (R194). -/
theorem legal_of_decode {c : Config} {code : Code} {i : Instr} (h : decode c code = some i) : legalInstr c i = true := by
  cases code <;> simp only [decode, Option.bind_eq_some_iff, keepLegal] at h <;> obtain ⟨j, _, hj⟩ := h <;>
    split at hj <;> simp_all

end Sys2Proof.Machine
end

