-- ==== Sys2Proof/Laws/Effects.lean ====
section
/-!
SUPPORT. The shared operations answer the exception that Machine/Effects.lean names, and complete where it names none; the
immediates of compressed instructions are those of their expansions.
-/
namespace Sys2Proof.Machine

/-- The outcome of an operation that raises an exception or completes. -/
theorem jumpOrRaise_eq (s t : State) (target : Word) :
    jumpOrRaise s t target =
      match targetTrap s target with
      | some c => .next (s.takeTrap c)
      | none => .next (t.jump target) := by
  unfold jumpOrRaise targetTrap
  split <;> rfl

theorem linkAndJump_eq (s : State) (len : Nat) (rd : RegNum) (target : Word) :
    linkAndJump s len rd target =
      match targetTrap s target with
      | some c => .next (s.takeTrap c)
      | none => .next ((s.wx rd (s.pc + BitVec.ofNat 64 len)).jump target) :=
  jumpOrRaise_eq s _ target

theorem withRm_eq (s : State) (i : Instr) (rm : BitVec 3) (k : Rm → Host.Outcome State Fault Refusal) :
    (∀ c, rmTrap s i rm = some c → withRm s i rm k = .next (s.takeTrap c)) ∧
      (rmTrap s i rm = none → ∃ m, effectiveRm s rm = some m ∧ withRm s i rm k = k m) := by
  unfold withRm rmTrap
  cases h : effectiveRm s rm <;> simp [raiseIllegal]

theorem csrAccess_of_trap {s : State} {i : Instr} {csr : BitVec 12} {reads writes : Bool} {c : Cause}
    (rd : RegNum) (new : Word → Word) (h : csrTrap s i ⟨csr, reads, writes⟩ = some c) :
    csrAccess s i rd csr reads writes new = .next (s.takeTrap c) := by
  unfold csrTrap at h
  unfold csrAccess
  cases hc : csrAt s.cfg csr with
  | none => simp_all [raiseIllegal]
  | some r =>
    simp only [hc] at h
    split at h
    · rename_i hw
      simp_all [raiseIllegal]
    · cases h

/-- A scaled offset that fits in 11 bits is the same offset as a signed 12-bit immediate (R726). -/
theorem immValue_scaled12 {w : Nat} (k : Nat) (off : BitVec w) (h : off.toNat * 2 ^ k < 2048) :
    immValue (scaled12 k off) = scaledOffset k off := by
  have hm : (BitVec.ofNat 12 (off.toNat * 2 ^ k)).msb = false := by
    rw [BitVec.msb_eq_false_iff_two_mul_lt]
    simp only [BitVec.toNat_ofNat]
    omega
  apply BitVec.eq_of_toNat_eq
  simp only [immValue, scaled12, scaledOffset, BitVec.signExtend_eq_setWidth_of_msb_false hm, BitVec.toNat_setWidth,
    BitVec.toNat_ofNat]
  omega

/-- The offset of C.BEQZ and C.BNEZ is that of the branch they expand to. -/
theorem branchOffset_signExtend (off : BitVec 8) : branchOffset (off.signExtend 12) = cbOffset off := by
  revert off
  decide

/-- The offset of C.J and C.JAL is that of the jump they expand to. -/
theorem jumpOffset_signExtend (off : BitVec 11) : jumpOffset (off.signExtend 20) = cjOffset off := by
  have hm : (off.signExtend 20).msb = off.msb := by
    simp [BitVec.msb_eq_getLsbD_last, BitVec.getElem_signExtend]
  ext i hi
  simp only [jumpOffset, cjOffset, BitVec.getElem_signExtend, BitVec.getElem_append, BitVec.msb_append, hm]
  simp
  split_ifs <;> first | rfl | omega | (simp_all; try omega)

end Sys2Proof.Machine
end

