-- ==== Sys2Proof/Laws/Memory.lean ====
section
/-!
SUPPORT. Memory: what a read gives after a write, that every operation keeps the canonical form, and the bytes of a
value.
-/
namespace Sys2Proof.Machine

/-! ### One byte -/

theorem readByte_eraseByte (m : Memory) (a c : Nat) :
    readByte (eraseByte a m) c = if c = a then unlistedByte else readByte m c := by
  induction m with
  | nil => simp [eraseByte, readByte]
  | cons e m ih =>
    obtain ⟨k, b⟩ := e
    by_cases hk : k = a
    · subst hk
      by_cases hc : c = k
      · subst hc; simp [eraseByte, ih]
      · simp [eraseByte, readByte, ih, hc]
    · by_cases hc : c = k
      · subst hc; simp [eraseByte, readByte, hk]
      · simp [eraseByte, readByte, hk, hc, ih]

theorem readByte_insertByte (m : Memory) (a c : Nat) (b : Byte) (h : ∀ e ∈ m, e.1 ≠ a) :
    readByte (insertByte a b m) c = if c = a then b else readByte m c := by
  induction m with
  | nil => simp [insertByte, readByte]
  | cons e m ih =>
    obtain ⟨k, d⟩ := e
    have hk : k ≠ a := h (k, d) (by simp)
    have ih' := ih fun e he => h e (by simp [he])
    by_cases hlt : a < k
    · simp [insertByte, readByte, hlt]
    · by_cases hc : c = k
      · subst hc; simp [insertByte, readByte, hlt, hk]
      · simp [insertByte, readByte, hlt, hc, ih']

theorem eraseByte_ne (m : Memory) (a : Nat) : ∀ e ∈ eraseByte a m, e.1 ≠ a := by
  induction m with
  | nil => simp [eraseByte]
  | cons e m ih =>
    obtain ⟨k, d⟩ := e
    unfold eraseByte
    split
    · exact ih
    · rename_i hk
      intro e he
      rcases List.mem_cons.mp he with rfl | he
      · exact hk
      · exact ih e he

/-- Read after write: the byte written at its address, every other address as before. -/
theorem readByte_writeByte (m : Memory) (a c : Nat) (b : Byte) :
    readByte (writeByte m a b) c = if c = a then b else readByte m c := by
  unfold writeByte
  split
  · rename_i hb; rw [readByte_eraseByte, hb]
  · rw [readByte_insertByte _ _ _ _ (eraseByte_ne m a), readByte_eraseByte]
    by_cases hc : c = a <;> simp [hc]

/-! ### The canonical form -/

theorem canonicalFrom_cons (lo k : Nat) (b : Byte) (m : Memory) :
    canonicalFrom lo ((k, b) :: m) = true ↔ lo ≤ k ∧ b ≠ unlistedByte ∧ canonicalFrom (k + 1) m = true := by
  simp [canonicalFrom, and_assoc]

theorem canonicalFrom_mono {lo lo' : Nat} {m : Memory} (hl : lo' ≤ lo) (h : canonicalFrom lo m = true) :
    canonicalFrom lo' m = true := by
  cases m with
  | nil => rfl
  | cons e m =>
    obtain ⟨k, b⟩ := e
    rw [canonicalFrom_cons] at h ⊢
    exact ⟨by omega, h.2⟩

theorem canonicalFrom_eraseByte (a : Nat) {lo : Nat} {m : Memory} (h : canonicalFrom lo m = true) :
    canonicalFrom lo (eraseByte a m) = true := by
  induction m generalizing lo with
  | nil => rfl
  | cons e m ih =>
    obtain ⟨k, b⟩ := e
    rw [canonicalFrom_cons] at h
    unfold eraseByte
    split
    · exact ih (canonicalFrom_mono (by omega) h.2.2)
    · rw [canonicalFrom_cons]; exact ⟨h.1, h.2.1, ih h.2.2⟩

theorem canonicalFrom_insertByte {lo a : Nat} {b : Byte} {m : Memory} (h : canonicalFrom lo m = true) (ha : lo ≤ a)
    (hb : b ≠ unlistedByte) (hm : ∀ e ∈ m, e.1 ≠ a) : canonicalFrom lo (insertByte a b m) = true := by
  induction m generalizing lo with
  | nil => simpa [insertByte, canonicalFrom] using ⟨ha, hb⟩
  | cons e m ih =>
    obtain ⟨k, d⟩ := e
    rw [canonicalFrom_cons] at h
    have hk : k ≠ a := hm (k, d) (by simp)
    unfold insertByte
    split
    · rw [canonicalFrom_cons, canonicalFrom_cons]; exact ⟨ha, hb, by omega, h.2⟩
    · rw [canonicalFrom_cons]
      exact ⟨h.1, h.2.1, ih h.2.2 (by omega) fun e he => hm e (by simp [he])⟩

theorem writeByte_wf (m : Memory) (a : Nat) (b : Byte) (h : Memory.wf m = true) : Memory.wf (writeByte m a b) = true := by
  unfold writeByte
  split
  · exact canonicalFrom_eraseByte a h
  · rename_i hb
    exact canonicalFrom_insertByte (canonicalFrom_eraseByte a h) (by omega) hb (eraseByte_ne m a)

theorem State.storeByte_wf (s : State) (a : Nat) (b : Byte) (h : Memory.wf s.mem = true) :
    Memory.wf (s.storeByte a b).mem = true := writeByte_wf _ _ _ h

theorem State.storeBytes_wf (s : State) (l : List (Nat × Byte)) (h : Memory.wf s.mem = true) :
    Memory.wf (s.storeBytes l).mem = true := by
  induction l generalizing s with
  | nil => exact h
  | cons c l ih =>
    obtain ⟨a, b⟩ := c
    rw [State.storeBytes]
    apply ih
    split
    · exact h
    · exact State.storeByte_wf s a b h

theorem State.memWrite_wf (s : State) (n : Nat) (a : Word) (v : Nat) (h : Memory.wf s.mem = true) :
    Memory.wf (s.memWrite n a v).mem = true := by
  simpa [State.memWrite] using State.storeBytes_wf s _ h

theorem State.resume_wf (s : State) (e : EnvEffect) (h : Memory.wf s.mem = true) :
    Memory.wf (s.resume e).mem = true := by
  simpa [State.resume] using State.storeBytes_wf s _ h

theorem State.placeBytes_wf (s : State) (i : Nat) (l : List Byte) (h : Memory.wf s.mem = true) :
    Memory.wf (s.placeBytes i l).mem = true := by
  induction l generalizing s i with
  | nil => exact h
  | cons b l ih => exact ih _ _ (writeByte_wf _ _ _ h)

theorem reset_mem_wf : Memory.wf State.reset.mem = true := rfl

/-! ### A list of stores -/

theorem State.readByte_storeBytes_of_not_mem (s : State) (l : List (Nat × Byte)) (c : Nat)
    (h : ∀ e ∈ l, e.1 ≠ c) : readByte (s.storeBytes l).mem c = readByte s.mem c := by
  induction l generalizing s with
  | nil => rfl
  | cons e l ih =>
    obtain ⟨a, b⟩ := e
    have ha : a ≠ c := h (a, b) (by simp)
    rw [State.storeBytes, ih _ fun e he => h e (by simp [he])]
    split
    · rfl
    · rw [State.storeByte_mem, readByte_writeByte]; simp [Ne.symm ha]

/-- Of stores at different addresses each lands, except in a device's range. -/
theorem State.readByte_storeBytes_of_mem (s : State) (l : List (Nat × Byte)) (a : Nat) (b : Byte)
    (hd : (l.map Prod.fst).Nodup) (h : (a, b) ∈ l) (hio : isIo s.cfg a = false) :
    readByte (s.storeBytes l).mem a = b := by
  induction l generalizing s with
  | nil => simp at h
  | cons e l ih =>
    obtain ⟨k, d⟩ := e
    rw [List.map_cons, List.nodup_cons] at hd
    rw [State.storeBytes]
    rcases List.mem_cons.mp h with he | he
    · obtain ⟨rfl, rfl⟩ := Prod.mk.inj he
      rw [State.readByte_storeBytes_of_not_mem]
      · simp [hio, readByte_writeByte]
      · intro e he' heq
        have hm := List.mem_map_of_mem (f := Prod.fst) he'
        rw [heq] at hm
        exact hd.1 hm
    · exact ih _ hd.2 he (by split <;> simpa using hio)

/-! ### The bytes of a value (R88) -/

theorem valueBytes_length (n v : Nat) : (valueBytes n v).length = n := by simp [valueBytes]

theorem bytesValue_lt (l : List Byte) : bytesValue l < 2 ^ (8 * l.length) := by
  induction l with
  | nil => simp [bytesValue]
  | cons b l ih =>
    have := b.isLt
    have h : 2 ^ (8 * (l.length + 1)) = 256 * 2 ^ (8 * l.length) := by
      rw [Nat.mul_add, Nat.pow_add]; ring
    simp only [bytesValue, List.length_cons, h]
    nlinarith

theorem bytesValue_valueBytes (n v : Nat) : bytesValue (valueBytes n v) = v % 2 ^ (8 * n) := by
  induction n generalizing v with
  | zero => simp [valueBytes, bytesValue, Nat.mod_one]
  | succ n ih =>
    have hs : valueBytes (n + 1) v = BitVec.ofNat 8 v :: valueBytes n (v / 256) := by
      have h0 : BitVec.ofNat 8 (v / 2 ^ (8 * 0)) = BitVec.ofNat 8 v := by simp
      simp only [valueBytes, List.range_succ_eq_map, List.map_cons, List.map_map, h0]
      congr 1
      apply List.map_congr_left
      intro i _
      simp only [Function.comp, Nat.succ_eq_add_one, Nat.div_div_eq_div_mul]
      congr 2
      rw [Nat.mul_add, Nat.pow_add]; ring
    rw [hs, bytesValue, ih, BitVec.toNat_ofNat]
    have h : 2 ^ (8 * (n + 1)) = 256 * 2 ^ (8 * n) := by rw [Nat.mul_add, Nat.pow_add]; ring
    rw [h, Nat.mod_mul]

theorem byteAddr_lt (x : Xlen) (a : Word) (i : Nat) : byteAddr x a i < 2 ^ x.bits := Nat.mod_lt _ (Nat.two_pow_pos _)

/-- The bytes of one access have different addresses. -/
theorem accessAddrs_nodup (x : Xlen) (a : Word) (n : Nat) (hn : n ≤ 2 ^ 32) : (accessAddrs x a n).Nodup := by
  unfold accessAddrs
  refine List.Nodup.map_on ?_ List.nodup_range
  intro i hi j hj h
  rw [List.mem_range] at hi hj
  have hb : 2 ^ 32 ≤ 2 ^ x.bits := Nat.pow_le_pow_right (by omega) (by cases x <;> simp [Xlen.bits])
  unfold byteAddr at h
  have h' : (a.toNat + i) ≡ (a.toNat + j) [MOD 2 ^ x.bits] := h
  have h'' := Nat.ModEq.add_left_cancel' _ h'
  rwa [Nat.ModEq, Nat.mod_eq_of_lt (by omega), Nat.mod_eq_of_lt (by omega)] at h''

theorem inOrder_length (e : Endian) (l : List Byte) : (inOrder e l).length = l.length := by
  cases e <;> simp [inOrder]

@[simp] theorem inOrder_inOrder (e : Endian) (l : List Byte) : inOrder e (inOrder e l) = l := by
  cases e <;> simp [inOrder]

/-- The frame of a write: a byte outside the access reads as before. -/
theorem State.readByte_memWrite_of_not_mem (s : State) (n : Nat) (a : Word) (v c : Nat)
    (h : c ∉ accessAddrs s.xlen a n) : readByte (s.memWrite n a v).mem c = readByte s.mem c := by
  rw [State.memWrite, State.noteIo_mem]
  apply State.readByte_storeBytes_of_not_mem
  rintro ⟨k, b⟩ he rfl
  exact h (List.of_mem_zip he).1

/-- What a write stores: byte i of the value, in the byte order, at the i-th address of the access. -/
theorem State.readByte_memWrite (s : State) (n : Nat) (a : Word) (v i : Nat) (hn : n ≤ 2 ^ 32) (hi : i < n)
    (hio : isIo s.cfg (byteAddr s.xlen a i) = false) :
    readByte (s.memWrite n a v).mem (byteAddr s.xlen a i) =
      (inOrder s.cfg.endian (valueBytes n v))[i]'(by rw [inOrder_length, valueBytes_length]; exact hi) := by
  rw [State.memWrite, State.noteIo_mem]
  have hl : (inOrder s.cfg.endian (valueBytes n v)).length = n := by rw [inOrder_length, valueBytes_length]
  apply State.readByte_storeBytes_of_mem _ _ _ _ _ _ hio
  · rw [List.map_fst_zip (by rw [hl]; simp [accessAddrs])]
    exact accessAddrs_nodup _ _ _ hn
  · rw [List.mem_iff_getElem]
    refine ⟨i, by simp [accessAddrs, hl, hi], ?_⟩
    simp [accessAddrs]

/-- Read after write of the same bytes of main memory (R88). -/
theorem State.memRead_memWrite (s : State) (n : Nat) (a : Word) (v : Nat) (hn : n ≤ 2 ^ 32)
    (hio : ∀ c ∈ accessAddrs s.xlen a n, isIo s.cfg c = false) :
    (s.memWrite n a v).memRead n a = v % 2 ^ (8 * n) := by
  rw [State.memRead, State.memWrite_cfg, State.memWrite_xlen]
  have : (accessAddrs s.xlen a n).map (s.memWrite n a v).dataByte = inOrder s.cfg.endian (valueBytes n v) := by
    apply List.ext_getElem
    · simp [accessAddrs, inOrder_length, valueBytes_length]
    · intro i h1 h2
      have hi : i < n := by simpa [accessAddrs] using h1
      have hm : byteAddr s.xlen a i ∈ accessAddrs s.xlen a n := by
        simp only [accessAddrs, List.mem_map, List.mem_range]; exact ⟨i, hi, rfl⟩
      rw [List.getElem_map]
      simp only [accessAddrs, List.getElem_map, List.getElem_range]
      rw [State.dataByte, State.memWrite_cfg, hio _ hm]
      simpa using State.readByte_memWrite s n a v i hn hi (hio _ hm)
  rw [this, inOrder_inOrder, bytesValue_valueBytes]

end Sys2Proof.Machine
end

