-- ==== Sys2Proof/Laws/PerInstr.lean ====
section
/-!
SUPPORT. One lemma for each instruction: the two low bits of its code say its length (R190), so that a fetch knows where it
ends.
-/
namespace Sys2Proof.Laws.LowBits

/-- The two low bits of an instruction's code are 11 exactly where the code has 32 bits. -/
def Statement (i : Instr) : Prop :=
  match encode i with
  | .half p => cOp p ≠ 3#2
  | .word w => (opcodeF w).extractLsb' 0 2 = 3#2

theorem word_of_opcode {w : BitVec 32} {op : BitVec 7} (h : opcodeF w = op) (low : op.extractLsb' 0 2 = 3#2) :
    (opcodeF w).extractLsb' 0 2 = 3#2 := h ▸ low

theorem half_of_op {p : BitVec 16} {op : BitVec 2} (h : cOp p = op) (low : op ≠ 3#2) : cOp p ≠ 3#2 := h ▸ low

theorem lui (rd : RegNum) (imm : BitVec 20) : Statement (.lui rd imm) :=
  word_of_opcode (opcodeF_encU ..) rfl

theorem auipc (rd : RegNum) (imm : BitVec 20) : Statement (.auipc rd imm) :=
  word_of_opcode (opcodeF_encU ..) rfl

theorem jal (rd : RegNum) (imm : BitVec 20) : Statement (.jal rd imm) :=
  word_of_opcode (opcodeF_encJ ..) rfl

theorem jalr (rd rs1 : RegNum) (imm : BitVec 12) : Statement (.jalr rd rs1 imm) :=
  word_of_opcode (opcodeF_encI ..) rfl

theorem beq (rs1 rs2 : RegNum) (imm : BitVec 12) : Statement (.beq rs1 rs2 imm) :=
  word_of_opcode (opcodeF_encB ..) rfl

theorem bne (rs1 rs2 : RegNum) (imm : BitVec 12) : Statement (.bne rs1 rs2 imm) :=
  word_of_opcode (opcodeF_encB ..) rfl

theorem blt (rs1 rs2 : RegNum) (imm : BitVec 12) : Statement (.blt rs1 rs2 imm) :=
  word_of_opcode (opcodeF_encB ..) rfl

theorem bge (rs1 rs2 : RegNum) (imm : BitVec 12) : Statement (.bge rs1 rs2 imm) :=
  word_of_opcode (opcodeF_encB ..) rfl

theorem bltu (rs1 rs2 : RegNum) (imm : BitVec 12) : Statement (.bltu rs1 rs2 imm) :=
  word_of_opcode (opcodeF_encB ..) rfl

theorem bgeu (rs1 rs2 : RegNum) (imm : BitVec 12) : Statement (.bgeu rs1 rs2 imm) :=
  word_of_opcode (opcodeF_encB ..) rfl

theorem lb (rd rs1 : RegNum) (imm : BitVec 12) : Statement (.lb rd rs1 imm) :=
  word_of_opcode (opcodeF_encI ..) rfl

theorem lh (rd rs1 : RegNum) (imm : BitVec 12) : Statement (.lh rd rs1 imm) :=
  word_of_opcode (opcodeF_encI ..) rfl

theorem lw (rd rs1 : RegNum) (imm : BitVec 12) : Statement (.lw rd rs1 imm) :=
  word_of_opcode (opcodeF_encI ..) rfl

theorem lbu (rd rs1 : RegNum) (imm : BitVec 12) : Statement (.lbu rd rs1 imm) :=
  word_of_opcode (opcodeF_encI ..) rfl

theorem lhu (rd rs1 : RegNum) (imm : BitVec 12) : Statement (.lhu rd rs1 imm) :=
  word_of_opcode (opcodeF_encI ..) rfl

theorem sb (rs2 rs1 : RegNum) (imm : BitVec 12) : Statement (.sb rs2 rs1 imm) :=
  word_of_opcode (opcodeF_encS ..) rfl

theorem sh (rs2 rs1 : RegNum) (imm : BitVec 12) : Statement (.sh rs2 rs1 imm) :=
  word_of_opcode (opcodeF_encS ..) rfl

theorem sw (rs2 rs1 : RegNum) (imm : BitVec 12) : Statement (.sw rs2 rs1 imm) :=
  word_of_opcode (opcodeF_encS ..) rfl

theorem addi (rd rs1 : RegNum) (imm : BitVec 12) : Statement (.addi rd rs1 imm) :=
  word_of_opcode (opcodeF_encI ..) rfl

theorem slti (rd rs1 : RegNum) (imm : BitVec 12) : Statement (.slti rd rs1 imm) :=
  word_of_opcode (opcodeF_encI ..) rfl

theorem sltiu (rd rs1 : RegNum) (imm : BitVec 12) : Statement (.sltiu rd rs1 imm) :=
  word_of_opcode (opcodeF_encI ..) rfl

theorem xori (rd rs1 : RegNum) (imm : BitVec 12) : Statement (.xori rd rs1 imm) :=
  word_of_opcode (opcodeF_encI ..) rfl

theorem ori (rd rs1 : RegNum) (imm : BitVec 12) : Statement (.ori rd rs1 imm) :=
  word_of_opcode (opcodeF_encI ..) rfl

theorem andi (rd rs1 : RegNum) (imm : BitVec 12) : Statement (.andi rd rs1 imm) :=
  word_of_opcode (opcodeF_encI ..) rfl

theorem slli (rd rs1 : RegNum) (shamt : BitVec 6) : Statement (.slli rd rs1 shamt) :=
  word_of_opcode (opcodeF_encI ..) rfl

theorem srli (rd rs1 : RegNum) (shamt : BitVec 6) : Statement (.srli rd rs1 shamt) :=
  word_of_opcode (opcodeF_encI ..) rfl

theorem srai (rd rs1 : RegNum) (shamt : BitVec 6) : Statement (.srai rd rs1 shamt) :=
  word_of_opcode (opcodeF_encI ..) rfl

theorem add (rd rs1 rs2 : RegNum) : Statement (.add rd rs1 rs2) :=
  word_of_opcode (opcodeF_encR ..) rfl

theorem sub (rd rs1 rs2 : RegNum) : Statement (.sub rd rs1 rs2) :=
  word_of_opcode (opcodeF_encR ..) rfl

theorem sll (rd rs1 rs2 : RegNum) : Statement (.sll rd rs1 rs2) :=
  word_of_opcode (opcodeF_encR ..) rfl

theorem slt (rd rs1 rs2 : RegNum) : Statement (.slt rd rs1 rs2) :=
  word_of_opcode (opcodeF_encR ..) rfl

theorem sltu (rd rs1 rs2 : RegNum) : Statement (.sltu rd rs1 rs2) :=
  word_of_opcode (opcodeF_encR ..) rfl

theorem xor (rd rs1 rs2 : RegNum) : Statement (.xor rd rs1 rs2) :=
  word_of_opcode (opcodeF_encR ..) rfl

theorem srl (rd rs1 rs2 : RegNum) : Statement (.srl rd rs1 rs2) :=
  word_of_opcode (opcodeF_encR ..) rfl

theorem sra (rd rs1 rs2 : RegNum) : Statement (.sra rd rs1 rs2) :=
  word_of_opcode (opcodeF_encR ..) rfl

theorem or (rd rs1 rs2 : RegNum) : Statement (.or rd rs1 rs2) :=
  word_of_opcode (opcodeF_encR ..) rfl

theorem and (rd rs1 rs2 : RegNum) : Statement (.and rd rs1 rs2) :=
  word_of_opcode (opcodeF_encR ..) rfl

theorem fenceTso (rs1 rd : RegNum) : Statement (.fenceTso rs1 rd) :=
  word_of_opcode (opcodeF_encI ..) rfl

theorem fence (fm pred succ : BitVec 4) (rs1 rd : RegNum) : Statement (.fence fm pred succ rs1 rd) :=
  word_of_opcode (opcodeF_encI ..) rfl

theorem ecall : Statement (.ecall) :=
  word_of_opcode (w := 0x00000073#32) (op := 0x73#7) rfl rfl

theorem ebreak : Statement (.ebreak) :=
  word_of_opcode (w := 0x00100073#32) (op := 0x73#7) rfl rfl

theorem lwu (rd rs1 : RegNum) (imm : BitVec 12) : Statement (.lwu rd rs1 imm) :=
  word_of_opcode (opcodeF_encI ..) rfl

theorem ld (rd rs1 : RegNum) (imm : BitVec 12) : Statement (.ld rd rs1 imm) :=
  word_of_opcode (opcodeF_encI ..) rfl

theorem sd (rs2 rs1 : RegNum) (imm : BitVec 12) : Statement (.sd rs2 rs1 imm) :=
  word_of_opcode (opcodeF_encS ..) rfl

theorem addiw (rd rs1 : RegNum) (imm : BitVec 12) : Statement (.addiw rd rs1 imm) :=
  word_of_opcode (opcodeF_encI ..) rfl

theorem slliw (rd rs1 : RegNum) (shamt : BitVec 5) : Statement (.slliw rd rs1 shamt) :=
  word_of_opcode (opcodeF_encR ..) rfl

theorem srliw (rd rs1 : RegNum) (shamt : BitVec 5) : Statement (.srliw rd rs1 shamt) :=
  word_of_opcode (opcodeF_encR ..) rfl

theorem sraiw (rd rs1 : RegNum) (shamt : BitVec 5) : Statement (.sraiw rd rs1 shamt) :=
  word_of_opcode (opcodeF_encR ..) rfl

theorem addw (rd rs1 rs2 : RegNum) : Statement (.addw rd rs1 rs2) :=
  word_of_opcode (opcodeF_encR ..) rfl

theorem subw (rd rs1 rs2 : RegNum) : Statement (.subw rd rs1 rs2) :=
  word_of_opcode (opcodeF_encR ..) rfl

theorem sllw (rd rs1 rs2 : RegNum) : Statement (.sllw rd rs1 rs2) :=
  word_of_opcode (opcodeF_encR ..) rfl

theorem srlw (rd rs1 rs2 : RegNum) : Statement (.srlw rd rs1 rs2) :=
  word_of_opcode (opcodeF_encR ..) rfl

theorem sraw (rd rs1 rs2 : RegNum) : Statement (.sraw rd rs1 rs2) :=
  word_of_opcode (opcodeF_encR ..) rfl

theorem fenceI (rd rs1 : RegNum) (imm : BitVec 12) : Statement (.fenceI rd rs1 imm) :=
  word_of_opcode (opcodeF_encI ..) rfl

theorem csrrw (rd : RegNum) (csr : BitVec 12) (rs1 : RegNum) : Statement (.csrrw rd csr rs1) :=
  word_of_opcode (opcodeF_encI ..) rfl

theorem csrrs (rd : RegNum) (csr : BitVec 12) (rs1 : RegNum) : Statement (.csrrs rd csr rs1) :=
  word_of_opcode (opcodeF_encI ..) rfl

theorem csrrc (rd : RegNum) (csr : BitVec 12) (rs1 : RegNum) : Statement (.csrrc rd csr rs1) :=
  word_of_opcode (opcodeF_encI ..) rfl

theorem csrrwi (rd : RegNum) (csr : BitVec 12) (uimm : BitVec 5) : Statement (.csrrwi rd csr uimm) :=
  word_of_opcode (opcodeF_encI ..) rfl

theorem csrrsi (rd : RegNum) (csr : BitVec 12) (uimm : BitVec 5) : Statement (.csrrsi rd csr uimm) :=
  word_of_opcode (opcodeF_encI ..) rfl

theorem csrrci (rd : RegNum) (csr : BitVec 12) (uimm : BitVec 5) : Statement (.csrrci rd csr uimm) :=
  word_of_opcode (opcodeF_encI ..) rfl

theorem mul (rd rs1 rs2 : RegNum) : Statement (.mul rd rs1 rs2) :=
  word_of_opcode (opcodeF_encR ..) rfl

theorem mulh (rd rs1 rs2 : RegNum) : Statement (.mulh rd rs1 rs2) :=
  word_of_opcode (opcodeF_encR ..) rfl

theorem mulhsu (rd rs1 rs2 : RegNum) : Statement (.mulhsu rd rs1 rs2) :=
  word_of_opcode (opcodeF_encR ..) rfl

theorem mulhu (rd rs1 rs2 : RegNum) : Statement (.mulhu rd rs1 rs2) :=
  word_of_opcode (opcodeF_encR ..) rfl

theorem div (rd rs1 rs2 : RegNum) : Statement (.div rd rs1 rs2) :=
  word_of_opcode (opcodeF_encR ..) rfl

theorem divu (rd rs1 rs2 : RegNum) : Statement (.divu rd rs1 rs2) :=
  word_of_opcode (opcodeF_encR ..) rfl

theorem rem (rd rs1 rs2 : RegNum) : Statement (.rem rd rs1 rs2) :=
  word_of_opcode (opcodeF_encR ..) rfl

theorem remu (rd rs1 rs2 : RegNum) : Statement (.remu rd rs1 rs2) :=
  word_of_opcode (opcodeF_encR ..) rfl

theorem mulw (rd rs1 rs2 : RegNum) : Statement (.mulw rd rs1 rs2) :=
  word_of_opcode (opcodeF_encR ..) rfl

theorem divw (rd rs1 rs2 : RegNum) : Statement (.divw rd rs1 rs2) :=
  word_of_opcode (opcodeF_encR ..) rfl

theorem divuw (rd rs1 rs2 : RegNum) : Statement (.divuw rd rs1 rs2) :=
  word_of_opcode (opcodeF_encR ..) rfl

theorem remw (rd rs1 rs2 : RegNum) : Statement (.remw rd rs1 rs2) :=
  word_of_opcode (opcodeF_encR ..) rfl

theorem remuw (rd rs1 rs2 : RegNum) : Statement (.remuw rd rs1 rs2) :=
  word_of_opcode (opcodeF_encR ..) rfl

theorem lrW (rd rs1 : RegNum) (aq rl : Bool) : Statement (.lrW rd rs1 aq rl) :=
  word_of_opcode (opcodeF_encA ..) rfl

theorem scW (rd rs1 rs2 : RegNum) (aq rl : Bool) : Statement (.scW rd rs1 rs2 aq rl) :=
  word_of_opcode (opcodeF_encA ..) rfl

theorem amoswapW (rd rs1 rs2 : RegNum) (aq rl : Bool) : Statement (.amoswapW rd rs1 rs2 aq rl) :=
  word_of_opcode (opcodeF_encA ..) rfl

theorem amoaddW (rd rs1 rs2 : RegNum) (aq rl : Bool) : Statement (.amoaddW rd rs1 rs2 aq rl) :=
  word_of_opcode (opcodeF_encA ..) rfl

theorem amoxorW (rd rs1 rs2 : RegNum) (aq rl : Bool) : Statement (.amoxorW rd rs1 rs2 aq rl) :=
  word_of_opcode (opcodeF_encA ..) rfl

theorem amoandW (rd rs1 rs2 : RegNum) (aq rl : Bool) : Statement (.amoandW rd rs1 rs2 aq rl) :=
  word_of_opcode (opcodeF_encA ..) rfl

theorem amoorW (rd rs1 rs2 : RegNum) (aq rl : Bool) : Statement (.amoorW rd rs1 rs2 aq rl) :=
  word_of_opcode (opcodeF_encA ..) rfl

theorem amominW (rd rs1 rs2 : RegNum) (aq rl : Bool) : Statement (.amominW rd rs1 rs2 aq rl) :=
  word_of_opcode (opcodeF_encA ..) rfl

theorem amomaxW (rd rs1 rs2 : RegNum) (aq rl : Bool) : Statement (.amomaxW rd rs1 rs2 aq rl) :=
  word_of_opcode (opcodeF_encA ..) rfl

theorem amominuW (rd rs1 rs2 : RegNum) (aq rl : Bool) : Statement (.amominuW rd rs1 rs2 aq rl) :=
  word_of_opcode (opcodeF_encA ..) rfl

theorem amomaxuW (rd rs1 rs2 : RegNum) (aq rl : Bool) : Statement (.amomaxuW rd rs1 rs2 aq rl) :=
  word_of_opcode (opcodeF_encA ..) rfl

theorem lrD (rd rs1 : RegNum) (aq rl : Bool) : Statement (.lrD rd rs1 aq rl) :=
  word_of_opcode (opcodeF_encA ..) rfl

theorem scD (rd rs1 rs2 : RegNum) (aq rl : Bool) : Statement (.scD rd rs1 rs2 aq rl) :=
  word_of_opcode (opcodeF_encA ..) rfl

theorem amoswapD (rd rs1 rs2 : RegNum) (aq rl : Bool) : Statement (.amoswapD rd rs1 rs2 aq rl) :=
  word_of_opcode (opcodeF_encA ..) rfl

theorem amoaddD (rd rs1 rs2 : RegNum) (aq rl : Bool) : Statement (.amoaddD rd rs1 rs2 aq rl) :=
  word_of_opcode (opcodeF_encA ..) rfl

theorem amoxorD (rd rs1 rs2 : RegNum) (aq rl : Bool) : Statement (.amoxorD rd rs1 rs2 aq rl) :=
  word_of_opcode (opcodeF_encA ..) rfl

theorem amoandD (rd rs1 rs2 : RegNum) (aq rl : Bool) : Statement (.amoandD rd rs1 rs2 aq rl) :=
  word_of_opcode (opcodeF_encA ..) rfl

theorem amoorD (rd rs1 rs2 : RegNum) (aq rl : Bool) : Statement (.amoorD rd rs1 rs2 aq rl) :=
  word_of_opcode (opcodeF_encA ..) rfl

theorem amominD (rd rs1 rs2 : RegNum) (aq rl : Bool) : Statement (.amominD rd rs1 rs2 aq rl) :=
  word_of_opcode (opcodeF_encA ..) rfl

theorem amomaxD (rd rs1 rs2 : RegNum) (aq rl : Bool) : Statement (.amomaxD rd rs1 rs2 aq rl) :=
  word_of_opcode (opcodeF_encA ..) rfl

theorem amominuD (rd rs1 rs2 : RegNum) (aq rl : Bool) : Statement (.amominuD rd rs1 rs2 aq rl) :=
  word_of_opcode (opcodeF_encA ..) rfl

theorem amomaxuD (rd rs1 rs2 : RegNum) (aq rl : Bool) : Statement (.amomaxuD rd rs1 rs2 aq rl) :=
  word_of_opcode (opcodeF_encA ..) rfl

theorem flw (rd rs1 : RegNum) (imm : BitVec 12) : Statement (.flw rd rs1 imm) :=
  word_of_opcode (opcodeF_encI ..) rfl

theorem fsw (rs2 rs1 : RegNum) (imm : BitVec 12) : Statement (.fsw rs2 rs1 imm) :=
  word_of_opcode (opcodeF_encS ..) rfl

theorem fmaddS (rd rs1 rs2 rs3 : RegNum) (rm : BitVec 3) : Statement (.fmaddS rd rs1 rs2 rs3 rm) :=
  word_of_opcode (opcodeF_encR4 ..) rfl

theorem fmsubS (rd rs1 rs2 rs3 : RegNum) (rm : BitVec 3) : Statement (.fmsubS rd rs1 rs2 rs3 rm) :=
  word_of_opcode (opcodeF_encR4 ..) rfl

theorem fnmsubS (rd rs1 rs2 rs3 : RegNum) (rm : BitVec 3) : Statement (.fnmsubS rd rs1 rs2 rs3 rm) :=
  word_of_opcode (opcodeF_encR4 ..) rfl

theorem fnmaddS (rd rs1 rs2 rs3 : RegNum) (rm : BitVec 3) : Statement (.fnmaddS rd rs1 rs2 rs3 rm) :=
  word_of_opcode (opcodeF_encR4 ..) rfl

theorem faddS (rd rs1 rs2 : RegNum) (rm : BitVec 3) : Statement (.faddS rd rs1 rs2 rm) :=
  word_of_opcode (opcodeF_encR ..) rfl

theorem fsubS (rd rs1 rs2 : RegNum) (rm : BitVec 3) : Statement (.fsubS rd rs1 rs2 rm) :=
  word_of_opcode (opcodeF_encR ..) rfl

theorem fmulS (rd rs1 rs2 : RegNum) (rm : BitVec 3) : Statement (.fmulS rd rs1 rs2 rm) :=
  word_of_opcode (opcodeF_encR ..) rfl

theorem fdivS (rd rs1 rs2 : RegNum) (rm : BitVec 3) : Statement (.fdivS rd rs1 rs2 rm) :=
  word_of_opcode (opcodeF_encR ..) rfl

theorem fsqrtS (rd rs1 : RegNum) (rm : BitVec 3) : Statement (.fsqrtS rd rs1 rm) :=
  word_of_opcode (opcodeF_encR ..) rfl

theorem fsgnjS (rd rs1 rs2 : RegNum) : Statement (.fsgnjS rd rs1 rs2) :=
  word_of_opcode (opcodeF_encR ..) rfl

theorem fsgnjnS (rd rs1 rs2 : RegNum) : Statement (.fsgnjnS rd rs1 rs2) :=
  word_of_opcode (opcodeF_encR ..) rfl

theorem fsgnjxS (rd rs1 rs2 : RegNum) : Statement (.fsgnjxS rd rs1 rs2) :=
  word_of_opcode (opcodeF_encR ..) rfl

theorem fminS (rd rs1 rs2 : RegNum) : Statement (.fminS rd rs1 rs2) :=
  word_of_opcode (opcodeF_encR ..) rfl

theorem fmaxS (rd rs1 rs2 : RegNum) : Statement (.fmaxS rd rs1 rs2) :=
  word_of_opcode (opcodeF_encR ..) rfl

theorem feqS (rd rs1 rs2 : RegNum) : Statement (.feqS rd rs1 rs2) :=
  word_of_opcode (opcodeF_encR ..) rfl

theorem fltS (rd rs1 rs2 : RegNum) : Statement (.fltS rd rs1 rs2) :=
  word_of_opcode (opcodeF_encR ..) rfl

theorem fleS (rd rs1 rs2 : RegNum) : Statement (.fleS rd rs1 rs2) :=
  word_of_opcode (opcodeF_encR ..) rfl

theorem fclassS (rd rs1 : RegNum) : Statement (.fclassS rd rs1) :=
  word_of_opcode (opcodeF_encR ..) rfl

theorem fcvtWS (rd rs1 : RegNum) (rm : BitVec 3) : Statement (.fcvtWS rd rs1 rm) :=
  word_of_opcode (opcodeF_encR ..) rfl

theorem fcvtWuS (rd rs1 : RegNum) (rm : BitVec 3) : Statement (.fcvtWuS rd rs1 rm) :=
  word_of_opcode (opcodeF_encR ..) rfl

theorem fcvtSW (rd rs1 : RegNum) (rm : BitVec 3) : Statement (.fcvtSW rd rs1 rm) :=
  word_of_opcode (opcodeF_encR ..) rfl

theorem fcvtSWu (rd rs1 : RegNum) (rm : BitVec 3) : Statement (.fcvtSWu rd rs1 rm) :=
  word_of_opcode (opcodeF_encR ..) rfl

theorem fmvXW (rd rs1 : RegNum) : Statement (.fmvXW rd rs1) :=
  word_of_opcode (opcodeF_encR ..) rfl

theorem fmvWX (rd rs1 : RegNum) : Statement (.fmvWX rd rs1) :=
  word_of_opcode (opcodeF_encR ..) rfl

theorem fcvtLS (rd rs1 : RegNum) (rm : BitVec 3) : Statement (.fcvtLS rd rs1 rm) :=
  word_of_opcode (opcodeF_encR ..) rfl

theorem fcvtLuS (rd rs1 : RegNum) (rm : BitVec 3) : Statement (.fcvtLuS rd rs1 rm) :=
  word_of_opcode (opcodeF_encR ..) rfl

theorem fcvtSL (rd rs1 : RegNum) (rm : BitVec 3) : Statement (.fcvtSL rd rs1 rm) :=
  word_of_opcode (opcodeF_encR ..) rfl

theorem fcvtSLu (rd rs1 : RegNum) (rm : BitVec 3) : Statement (.fcvtSLu rd rs1 rm) :=
  word_of_opcode (opcodeF_encR ..) rfl

theorem fld (rd rs1 : RegNum) (imm : BitVec 12) : Statement (.fld rd rs1 imm) :=
  word_of_opcode (opcodeF_encI ..) rfl

theorem fsd (rs2 rs1 : RegNum) (imm : BitVec 12) : Statement (.fsd rs2 rs1 imm) :=
  word_of_opcode (opcodeF_encS ..) rfl

theorem fmaddD (rd rs1 rs2 rs3 : RegNum) (rm : BitVec 3) : Statement (.fmaddD rd rs1 rs2 rs3 rm) :=
  word_of_opcode (opcodeF_encR4 ..) rfl

theorem fmsubD (rd rs1 rs2 rs3 : RegNum) (rm : BitVec 3) : Statement (.fmsubD rd rs1 rs2 rs3 rm) :=
  word_of_opcode (opcodeF_encR4 ..) rfl

theorem fnmsubD (rd rs1 rs2 rs3 : RegNum) (rm : BitVec 3) : Statement (.fnmsubD rd rs1 rs2 rs3 rm) :=
  word_of_opcode (opcodeF_encR4 ..) rfl

theorem fnmaddD (rd rs1 rs2 rs3 : RegNum) (rm : BitVec 3) : Statement (.fnmaddD rd rs1 rs2 rs3 rm) :=
  word_of_opcode (opcodeF_encR4 ..) rfl

theorem faddD (rd rs1 rs2 : RegNum) (rm : BitVec 3) : Statement (.faddD rd rs1 rs2 rm) :=
  word_of_opcode (opcodeF_encR ..) rfl

theorem fsubD (rd rs1 rs2 : RegNum) (rm : BitVec 3) : Statement (.fsubD rd rs1 rs2 rm) :=
  word_of_opcode (opcodeF_encR ..) rfl

theorem fmulD (rd rs1 rs2 : RegNum) (rm : BitVec 3) : Statement (.fmulD rd rs1 rs2 rm) :=
  word_of_opcode (opcodeF_encR ..) rfl

theorem fdivD (rd rs1 rs2 : RegNum) (rm : BitVec 3) : Statement (.fdivD rd rs1 rs2 rm) :=
  word_of_opcode (opcodeF_encR ..) rfl

theorem fsqrtD (rd rs1 : RegNum) (rm : BitVec 3) : Statement (.fsqrtD rd rs1 rm) :=
  word_of_opcode (opcodeF_encR ..) rfl

theorem fsgnjD (rd rs1 rs2 : RegNum) : Statement (.fsgnjD rd rs1 rs2) :=
  word_of_opcode (opcodeF_encR ..) rfl

theorem fsgnjnD (rd rs1 rs2 : RegNum) : Statement (.fsgnjnD rd rs1 rs2) :=
  word_of_opcode (opcodeF_encR ..) rfl

theorem fsgnjxD (rd rs1 rs2 : RegNum) : Statement (.fsgnjxD rd rs1 rs2) :=
  word_of_opcode (opcodeF_encR ..) rfl

theorem fminD (rd rs1 rs2 : RegNum) : Statement (.fminD rd rs1 rs2) :=
  word_of_opcode (opcodeF_encR ..) rfl

theorem fmaxD (rd rs1 rs2 : RegNum) : Statement (.fmaxD rd rs1 rs2) :=
  word_of_opcode (opcodeF_encR ..) rfl

theorem fcvtSD (rd rs1 : RegNum) (rm : BitVec 3) : Statement (.fcvtSD rd rs1 rm) :=
  word_of_opcode (opcodeF_encR ..) rfl

theorem fcvtDS (rd rs1 : RegNum) (rm : BitVec 3) : Statement (.fcvtDS rd rs1 rm) :=
  word_of_opcode (opcodeF_encR ..) rfl

theorem feqD (rd rs1 rs2 : RegNum) : Statement (.feqD rd rs1 rs2) :=
  word_of_opcode (opcodeF_encR ..) rfl

theorem fltD (rd rs1 rs2 : RegNum) : Statement (.fltD rd rs1 rs2) :=
  word_of_opcode (opcodeF_encR ..) rfl

theorem fleD (rd rs1 rs2 : RegNum) : Statement (.fleD rd rs1 rs2) :=
  word_of_opcode (opcodeF_encR ..) rfl

theorem fclassD (rd rs1 : RegNum) : Statement (.fclassD rd rs1) :=
  word_of_opcode (opcodeF_encR ..) rfl

theorem fcvtWD (rd rs1 : RegNum) (rm : BitVec 3) : Statement (.fcvtWD rd rs1 rm) :=
  word_of_opcode (opcodeF_encR ..) rfl

theorem fcvtWuD (rd rs1 : RegNum) (rm : BitVec 3) : Statement (.fcvtWuD rd rs1 rm) :=
  word_of_opcode (opcodeF_encR ..) rfl

theorem fcvtDW (rd rs1 : RegNum) (rm : BitVec 3) : Statement (.fcvtDW rd rs1 rm) :=
  word_of_opcode (opcodeF_encR ..) rfl

theorem fcvtDWu (rd rs1 : RegNum) (rm : BitVec 3) : Statement (.fcvtDWu rd rs1 rm) :=
  word_of_opcode (opcodeF_encR ..) rfl

theorem fcvtLD (rd rs1 : RegNum) (rm : BitVec 3) : Statement (.fcvtLD rd rs1 rm) :=
  word_of_opcode (opcodeF_encR ..) rfl

theorem fcvtLuD (rd rs1 : RegNum) (rm : BitVec 3) : Statement (.fcvtLuD rd rs1 rm) :=
  word_of_opcode (opcodeF_encR ..) rfl

theorem fcvtDL (rd rs1 : RegNum) (rm : BitVec 3) : Statement (.fcvtDL rd rs1 rm) :=
  word_of_opcode (opcodeF_encR ..) rfl

theorem fcvtDLu (rd rs1 : RegNum) (rm : BitVec 3) : Statement (.fcvtDLu rd rs1 rm) :=
  word_of_opcode (opcodeF_encR ..) rfl

theorem fmvXD (rd rs1 : RegNum) : Statement (.fmvXD rd rs1) :=
  word_of_opcode (opcodeF_encR ..) rfl

theorem fmvDX (rd rs1 : RegNum) : Statement (.fmvDX rd rs1) :=
  word_of_opcode (opcodeF_encR ..) rfl

theorem flq (rd rs1 : RegNum) (imm : BitVec 12) : Statement (.flq rd rs1 imm) :=
  word_of_opcode (opcodeF_encI ..) rfl

theorem fsq (rs2 rs1 : RegNum) (imm : BitVec 12) : Statement (.fsq rs2 rs1 imm) :=
  word_of_opcode (opcodeF_encS ..) rfl

theorem fmaddQ (rd rs1 rs2 rs3 : RegNum) (rm : BitVec 3) : Statement (.fmaddQ rd rs1 rs2 rs3 rm) :=
  word_of_opcode (opcodeF_encR4 ..) rfl

theorem fmsubQ (rd rs1 rs2 rs3 : RegNum) (rm : BitVec 3) : Statement (.fmsubQ rd rs1 rs2 rs3 rm) :=
  word_of_opcode (opcodeF_encR4 ..) rfl

theorem fnmsubQ (rd rs1 rs2 rs3 : RegNum) (rm : BitVec 3) : Statement (.fnmsubQ rd rs1 rs2 rs3 rm) :=
  word_of_opcode (opcodeF_encR4 ..) rfl

theorem fnmaddQ (rd rs1 rs2 rs3 : RegNum) (rm : BitVec 3) : Statement (.fnmaddQ rd rs1 rs2 rs3 rm) :=
  word_of_opcode (opcodeF_encR4 ..) rfl

theorem faddQ (rd rs1 rs2 : RegNum) (rm : BitVec 3) : Statement (.faddQ rd rs1 rs2 rm) :=
  word_of_opcode (opcodeF_encR ..) rfl

theorem fsubQ (rd rs1 rs2 : RegNum) (rm : BitVec 3) : Statement (.fsubQ rd rs1 rs2 rm) :=
  word_of_opcode (opcodeF_encR ..) rfl

theorem fmulQ (rd rs1 rs2 : RegNum) (rm : BitVec 3) : Statement (.fmulQ rd rs1 rs2 rm) :=
  word_of_opcode (opcodeF_encR ..) rfl

theorem fdivQ (rd rs1 rs2 : RegNum) (rm : BitVec 3) : Statement (.fdivQ rd rs1 rs2 rm) :=
  word_of_opcode (opcodeF_encR ..) rfl

theorem fsqrtQ (rd rs1 : RegNum) (rm : BitVec 3) : Statement (.fsqrtQ rd rs1 rm) :=
  word_of_opcode (opcodeF_encR ..) rfl

theorem fsgnjQ (rd rs1 rs2 : RegNum) : Statement (.fsgnjQ rd rs1 rs2) :=
  word_of_opcode (opcodeF_encR ..) rfl

theorem fsgnjnQ (rd rs1 rs2 : RegNum) : Statement (.fsgnjnQ rd rs1 rs2) :=
  word_of_opcode (opcodeF_encR ..) rfl

theorem fsgnjxQ (rd rs1 rs2 : RegNum) : Statement (.fsgnjxQ rd rs1 rs2) :=
  word_of_opcode (opcodeF_encR ..) rfl

theorem fminQ (rd rs1 rs2 : RegNum) : Statement (.fminQ rd rs1 rs2) :=
  word_of_opcode (opcodeF_encR ..) rfl

theorem fmaxQ (rd rs1 rs2 : RegNum) : Statement (.fmaxQ rd rs1 rs2) :=
  word_of_opcode (opcodeF_encR ..) rfl

theorem fcvtSQ (rd rs1 : RegNum) (rm : BitVec 3) : Statement (.fcvtSQ rd rs1 rm) :=
  word_of_opcode (opcodeF_encR ..) rfl

theorem fcvtQS (rd rs1 : RegNum) (rm : BitVec 3) : Statement (.fcvtQS rd rs1 rm) :=
  word_of_opcode (opcodeF_encR ..) rfl

theorem fcvtDQ (rd rs1 : RegNum) (rm : BitVec 3) : Statement (.fcvtDQ rd rs1 rm) :=
  word_of_opcode (opcodeF_encR ..) rfl

theorem fcvtQD (rd rs1 : RegNum) (rm : BitVec 3) : Statement (.fcvtQD rd rs1 rm) :=
  word_of_opcode (opcodeF_encR ..) rfl

theorem feqQ (rd rs1 rs2 : RegNum) : Statement (.feqQ rd rs1 rs2) :=
  word_of_opcode (opcodeF_encR ..) rfl

theorem fltQ (rd rs1 rs2 : RegNum) : Statement (.fltQ rd rs1 rs2) :=
  word_of_opcode (opcodeF_encR ..) rfl

theorem fleQ (rd rs1 rs2 : RegNum) : Statement (.fleQ rd rs1 rs2) :=
  word_of_opcode (opcodeF_encR ..) rfl

theorem fclassQ (rd rs1 : RegNum) : Statement (.fclassQ rd rs1) :=
  word_of_opcode (opcodeF_encR ..) rfl

theorem fcvtWQ (rd rs1 : RegNum) (rm : BitVec 3) : Statement (.fcvtWQ rd rs1 rm) :=
  word_of_opcode (opcodeF_encR ..) rfl

theorem fcvtWuQ (rd rs1 : RegNum) (rm : BitVec 3) : Statement (.fcvtWuQ rd rs1 rm) :=
  word_of_opcode (opcodeF_encR ..) rfl

theorem fcvtQW (rd rs1 : RegNum) (rm : BitVec 3) : Statement (.fcvtQW rd rs1 rm) :=
  word_of_opcode (opcodeF_encR ..) rfl

theorem fcvtQWu (rd rs1 : RegNum) (rm : BitVec 3) : Statement (.fcvtQWu rd rs1 rm) :=
  word_of_opcode (opcodeF_encR ..) rfl

theorem fcvtLQ (rd rs1 : RegNum) (rm : BitVec 3) : Statement (.fcvtLQ rd rs1 rm) :=
  word_of_opcode (opcodeF_encR ..) rfl

theorem fcvtLuQ (rd rs1 : RegNum) (rm : BitVec 3) : Statement (.fcvtLuQ rd rs1 rm) :=
  word_of_opcode (opcodeF_encR ..) rfl

theorem fcvtQL (rd rs1 : RegNum) (rm : BitVec 3) : Statement (.fcvtQL rd rs1 rm) :=
  word_of_opcode (opcodeF_encR ..) rfl

theorem fcvtQLu (rd rs1 : RegNum) (rm : BitVec 3) : Statement (.fcvtQLu rd rs1 rm) :=
  word_of_opcode (opcodeF_encR ..) rfl

theorem cAddi4spn (rd : CRegNum) (imm : BitVec 8) : Statement (.cAddi4spn rd imm) :=
  half_of_op (cOp_encCiw ..) (by decide)

theorem cFld (rd rs1 : CRegNum) (off : BitVec 5) : Statement (.cFld rd rs1 off) :=
  half_of_op (cOp_encCl ..) (by decide)

theorem cLq (rd rs1 : CRegNum) (off : BitVec 5) : Statement (.cLq rd rs1 off) :=
  half_of_op (cOp_encCl ..) (by decide)

theorem cLw (rd rs1 : CRegNum) (off : BitVec 5) : Statement (.cLw rd rs1 off) :=
  half_of_op (cOp_encCl ..) (by decide)

theorem cFlw (rd rs1 : CRegNum) (off : BitVec 5) : Statement (.cFlw rd rs1 off) :=
  half_of_op (cOp_encCl ..) (by decide)

theorem cLd (rd rs1 : CRegNum) (off : BitVec 5) : Statement (.cLd rd rs1 off) :=
  half_of_op (cOp_encCl ..) (by decide)

theorem cFsd (rs2 rs1 : CRegNum) (off : BitVec 5) : Statement (.cFsd rs2 rs1 off) :=
  half_of_op (cOp_encCl ..) (by decide)

theorem cSq (rs2 rs1 : CRegNum) (off : BitVec 5) : Statement (.cSq rs2 rs1 off) :=
  half_of_op (cOp_encCl ..) (by decide)

theorem cSw (rs2 rs1 : CRegNum) (off : BitVec 5) : Statement (.cSw rs2 rs1 off) :=
  half_of_op (cOp_encCl ..) (by decide)

theorem cFsw (rs2 rs1 : CRegNum) (off : BitVec 5) : Statement (.cFsw rs2 rs1 off) :=
  half_of_op (cOp_encCl ..) (by decide)

theorem cSd (rs2 rs1 : CRegNum) (off : BitVec 5) : Statement (.cSd rs2 rs1 off) :=
  half_of_op (cOp_encCl ..) (by decide)

theorem cNop (imm : BitVec 6) : Statement (.cNop imm) :=
  half_of_op (cOp_encCi ..) (by decide)

theorem cAddi (rd : RegNum) (imm : BitVec 6) : Statement (.cAddi rd imm) :=
  half_of_op (cOp_encCi ..) (by decide)

theorem cJal (off : BitVec 11) : Statement (.cJal off) :=
  half_of_op (cOp_encCj ..) (by decide)

theorem cAddiw (rd : RegNum) (imm : BitVec 6) : Statement (.cAddiw rd imm) :=
  half_of_op (cOp_encCi ..) (by decide)

theorem cLi (rd : RegNum) (imm : BitVec 6) : Statement (.cLi rd imm) :=
  half_of_op (cOp_encCi ..) (by decide)

theorem cAddi16sp (imm : BitVec 6) : Statement (.cAddi16sp imm) :=
  half_of_op (cOp_encCi ..) (by decide)

theorem cLui (rd : RegNum) (imm : BitVec 6) : Statement (.cLui rd imm) :=
  half_of_op (cOp_encCi ..) (by decide)

theorem cSrli (rd : CRegNum) (shamt : BitVec 6) : Statement (.cSrli rd shamt) :=
  half_of_op (cOp_encCs6 ..) (by decide)

theorem cSrai (rd : CRegNum) (shamt : BitVec 6) : Statement (.cSrai rd shamt) :=
  half_of_op (cOp_encCs6 ..) (by decide)

theorem cAndi (rd : CRegNum) (imm : BitVec 6) : Statement (.cAndi rd imm) :=
  half_of_op (cOp_encCs6 ..) (by decide)

theorem cSub (rd rs2 : CRegNum) : Statement (.cSub rd rs2) :=
  half_of_op (cOp_encCa ..) (by decide)

theorem cXor (rd rs2 : CRegNum) : Statement (.cXor rd rs2) :=
  half_of_op (cOp_encCa ..) (by decide)

theorem cOr (rd rs2 : CRegNum) : Statement (.cOr rd rs2) :=
  half_of_op (cOp_encCa ..) (by decide)

theorem cAnd (rd rs2 : CRegNum) : Statement (.cAnd rd rs2) :=
  half_of_op (cOp_encCa ..) (by decide)

theorem cSubw (rd rs2 : CRegNum) : Statement (.cSubw rd rs2) :=
  half_of_op (cOp_encCa ..) (by decide)

theorem cAddw (rd rs2 : CRegNum) : Statement (.cAddw rd rs2) :=
  half_of_op (cOp_encCa ..) (by decide)

theorem cJ (off : BitVec 11) : Statement (.cJ off) :=
  half_of_op (cOp_encCj ..) (by decide)

theorem cBeqz (rs1 : CRegNum) (off : BitVec 8) : Statement (.cBeqz rs1 off) :=
  half_of_op (cOp_encCb ..) (by decide)

theorem cBnez (rs1 : CRegNum) (off : BitVec 8) : Statement (.cBnez rs1 off) :=
  half_of_op (cOp_encCb ..) (by decide)

theorem cSlli (rd : RegNum) (shamt : BitVec 6) : Statement (.cSlli rd shamt) :=
  half_of_op (cOp_encCi ..) (by decide)

theorem cFldsp (rd : RegNum) (off : BitVec 6) : Statement (.cFldsp rd off) :=
  half_of_op (cOp_encCi ..) (by decide)

theorem cLqsp (rd : RegNum) (off : BitVec 6) : Statement (.cLqsp rd off) :=
  half_of_op (cOp_encCi ..) (by decide)

theorem cLwsp (rd : RegNum) (off : BitVec 6) : Statement (.cLwsp rd off) :=
  half_of_op (cOp_encCi ..) (by decide)

theorem cFlwsp (rd : RegNum) (off : BitVec 6) : Statement (.cFlwsp rd off) :=
  half_of_op (cOp_encCi ..) (by decide)

theorem cLdsp (rd : RegNum) (off : BitVec 6) : Statement (.cLdsp rd off) :=
  half_of_op (cOp_encCi ..) (by decide)

theorem cJr (rs1 : RegNum) : Statement (.cJr rs1) :=
  half_of_op (cOp_encCr ..) (by decide)

theorem cMv (rd rs2 : RegNum) : Statement (.cMv rd rs2) :=
  half_of_op (cOp_encCr ..) (by decide)

theorem cEbreak : Statement (.cEbreak) :=
  half_of_op (p := 0x9002#16) (op := 2#2) rfl (by decide)

theorem cJalr (rs1 : RegNum) : Statement (.cJalr rs1) :=
  half_of_op (cOp_encCr ..) (by decide)

theorem cAdd (rd rs2 : RegNum) : Statement (.cAdd rd rs2) :=
  half_of_op (cOp_encCr ..) (by decide)

theorem cFsdsp (rs2 : RegNum) (off : BitVec 6) : Statement (.cFsdsp rs2 off) :=
  half_of_op (cOp_encCss ..) (by decide)

theorem cSqsp (rs2 : RegNum) (off : BitVec 6) : Statement (.cSqsp rs2 off) :=
  half_of_op (cOp_encCss ..) (by decide)

theorem cSwsp (rs2 : RegNum) (off : BitVec 6) : Statement (.cSwsp rs2 off) :=
  half_of_op (cOp_encCss ..) (by decide)

theorem cFswsp (rs2 : RegNum) (off : BitVec 6) : Statement (.cFswsp rs2 off) :=
  half_of_op (cOp_encCss ..) (by decide)

theorem cSdsp (rs2 : RegNum) (off : BitVec 6) : Statement (.cSdsp rs2 off) :=
  half_of_op (cOp_encCss ..) (by decide)

end Sys2Proof.Laws.LowBits
end

