-- ==== Sys2Proof/Laws/Registers.lean ====
section
/-!
SUPPORT. Reading and writing the register files: widths, x0, and read after write.
-/
namespace Sys2Proof.Machine

/-! ### XLEN -/

theorem lowBits_toNat (x : Xlen) (v : Word) : (lowBits x v).toNat = v.toNat % 2 ^ x.bits := by
  cases x with
  | rv32 =>
    have := v.isLt
    simp only [lowBits, Xlen.bits, BitVec.toNat_setWidth]
    omega
  | rv64 =>
    have := v.isLt
    simp only [lowBits, Xlen.bits]
    omega

theorem lowBits_toNat_lt (x : Xlen) (v : Word) : (lowBits x v).toNat < 2 ^ x.bits := by
  rw [lowBits_toNat]; exact Nat.mod_lt _ (Nat.two_pow_pos _)

@[simp] theorem lowBits_lowBits (x : Xlen) (v : Word) : lowBits x (lowBits x v) = lowBits x v := by
  apply BitVec.eq_of_toNat_eq
  simp [lowBits_toNat]

@[simp] theorem lowBits_zero (x : Xlen) : lowBits x 0#64 = 0#64 := by cases x <;> rfl

theorem lowBits_getLsbD (x : Xlen) (v : Word) (i : Nat) :
    (lowBits x v).getLsbD i = (decide (i < x.bits) && v.getLsbD i) := by
  cases x with
  | rv32 =>
    simp only [lowBits, BitVec.getLsbD_setWidth, Xlen.bits]
    by_cases h : i < 32
    · have : i < 64 := by omega
      simp [h, this]
    · simp [h]
  | rv64 =>
    simp only [lowBits, Xlen.bits]
    by_cases h : i < 64
    · simp [h]
    · simp [h, BitVec.getLsbD_of_ge v i (by omega)]

/-! ### x registers (R31) -/

@[simp] theorem State.rx_zero (s : State) : s.rx 0#5 = 0#64 := by simp [State.rx]

@[simp] theorem State.lowBits_rx (s : State) (r : RegNum) : lowBits s.xlen (s.rx r) = s.rx r := by
  unfold State.rx; split <;> simp

theorem State.rx_toNat_lt (s : State) (r : RegNum) : (s.rx r).toNat < 2 ^ s.xlen.bits := by
  rw [← State.lowBits_rx]; exact lowBits_toNat_lt _ _

@[simp] theorem State.wx_zero (s : State) (v : Word) : s.wx 0#5 v = s := by simp [State.wx]

/-- Read after write: the destination holds the low XLEN bits, x0 still reads 0, every other register is as it was. -/
theorem State.rx_wx (s : State) (rd r : RegNum) (v : Word) :
    (s.wx rd v).rx r = if r = rd ∧ rd ≠ 0#5 then lowBits s.xlen v else s.rx r := by
  by_cases h0 : rd = 0#5
  · subst h0; simp
  · have hw : s.wx rd v = { s with x := s.x.set rd.toNat (lowBits s.xlen v) rd.isLt } := by simp [State.wx, h0]
    by_cases hr0 : r = 0#5
    · subst hr0
      have : ¬ (0#5 = rd ∧ rd ≠ 0#5) := by rintro ⟨h, h'⟩; exact h' h.symm
      simp [this]
    · by_cases hr : r = rd
      · subst hr
        simp [hw, State.rx, h0, State.xlen]
      · have hn : rd.toNat ≠ r.toNat := fun h => hr (BitVec.eq_of_toNat_eq h.symm)
        simp [hw, State.rx, hr0, hr, State.xlen, hn]

@[simp] theorem State.rx_wx_of_ne (s : State) {rd r : RegNum} (v : Word) (h : r ≠ rd) : (s.wx rd v).rx r = s.rx r := by
  simp [State.rx_wx, h]

@[simp] theorem State.rx_wx_self (s : State) {rd : RegNum} (v : Word) (h : rd ≠ 0#5) :
    (s.wx rd v).rx rd = lowBits s.xlen v := by
  simp [State.rx_wx, h]

/-! ### f registers (R53) -/

theorem State.wf_f_get (s : State) (n : Nat) (rd r : RegNum) (v : FWord) :
    ((s.wf n rd v).f[r.toNat]'r.isLt) =
      if r = rd then lowF s.flen (box s.flen n v) else s.f[r.toNat]'r.isLt := by
  by_cases hr : r = rd
  · subst hr; simp [State.wf]
  · have hn : rd.toNat ≠ r.toNat := fun h => hr (BitVec.eq_of_toNat_eq h.symm)
    simp [State.wf, hn, hr]

theorem lowF_getLsbD (n : Nat) (v : FWord) (hn : n ≤ 128) (i : Nat) :
    (lowF n v).getLsbD i = (decide (i < n) && v.getLsbD i) := by
  simp only [lowF, BitVec.getLsbD_and, BitVec.getLsbD_ofNat, Nat.testBit_two_pow_sub_one]
  by_cases h : i < n
  · have : i < 128 := by omega
    simp [h, this]
  · simp [h]

theorem flen_le (e : Ext) : flen e ≤ 128 := by
  unfold flen; split
  · omega
  · split <;> omega

@[simp] theorem lowF_lowF (e : Ext) (v : FWord) : lowF (flen e) (lowF (flen e) v) = lowF (flen e) v := by
  apply BitVec.eq_of_getLsbD_eq
  intro i _
  rw [lowF_getLsbD _ _ (flen_le e), lowF_getLsbD _ _ (flen_le e)]
  cases decide (i < flen e) <;> simp

/-! ### fcsr (R43, R44) -/

@[simp] theorem State.setFcsr_frm (s : State) (m : BitVec 3) (fl : FpFlags) : (s.setFcsr m fl).frm = m := by
  apply BitVec.eq_of_getLsbD_eq
  intro i hi
  simp only [State.frm, State.setFcsr, BitVec.getLsbD_extractLsb', BitVec.getLsbD_append]
  have : ¬ (5 + i < 5) := by omega
  simp [hi, this]

@[simp] theorem State.setFcsr_fflags (s : State) (m : BitVec 3) (fl : FpFlags) : (s.setFcsr m fl).fflags = fl := by
  apply BitVec.eq_of_getLsbD_eq
  intro i hi
  simp only [State.fflags, State.setFcsr, BitVec.getLsbD_extractLsb', BitVec.getLsbD_append]
  simp [hi]

theorem State.setFcsr_lt (s : State) (m : BitVec 3) (fl : FpFlags) : (s.setFcsr m fl).fcsr.toNat < 256 := by
  have : (s.setFcsr m fl).fcsr = ((m ++ fl : BitVec 8).setWidth 32) := by
    apply BitVec.eq_of_getLsbD_eq
    intro i hi
    simp only [State.setFcsr, BitVec.getLsbD_append, BitVec.getLsbD_setWidth, hi, decide_true, Bool.true_and]
    by_cases h5 : i < 5
    · simp [h5]
    · by_cases h8 : i - 5 < 3
      · simp [h5, h8]
      · simp [h5, h8, BitVec.getLsbD_of_ge m (i - 5) (by omega)]
  rw [this, BitVec.toNat_setWidth]
  have := (m ++ fl : BitVec 8).isLt
  omega

@[simp] theorem State.accrue_frm (s : State) (fl : FpFlags) : (s.accrue fl).frm = s.frm := by simp [State.accrue]

/-- The flags are sticky (R56). -/
@[simp] theorem State.accrue_fflags (s : State) (fl : FpFlags) : (s.accrue fl).fflags = s.fflags ||| fl := by
  simp [State.accrue]

end Sys2Proof.Machine
end

