-- ==== Sys2Proof/Machine/Assembler.lean ====
section
/-!
DEFINITION. What spec/ gives beside the machine: the length encoding of a first parcel, the HINT code points, the names of
registers, the pseudoinstructions with their expansions, and the ISA string of a configuration. No step reads this file.
-/
namespace Sys2Proof.Machine

/-! ### Length of an instruction (R190) -/

/-- The length in bits that a first parcel calls for (Table R190-T); none for the lengths reserved for 192 bits and more.
The machine has ILEN = 32 and treats every longer one as reserved (R191, D27). -/
def encodedLength (p : BitVec 16) : Option Nat :=
  if p.extractLsb' 0 2 ≠ 0b11#2 then some 16
  else if p.extractLsb' 2 3 ≠ 0b111#3 then some 32
  else if p.extractLsb' 0 6 = 0b011111#6 then some 48
  else if p.extractLsb' 0 7 = 0b0111111#7 then some 64
  else if p.extractLsb' 12 3 ≠ 0b111#3 then some (80 + 16 * (p.extractLsb' 12 3).toNat)
  else none

/-! ### HINT code points (R230, R380, R781) -/

/-- What a HINT code point is reserved for. Each executes as the instruction it is (R340, R782, D26). -/
inductive HintUse | standard | custom
  deriving DecidableEq, Repr

/-- A HINT where a condition holds. -/
def hintIf (b : Bool) (u : HintUse) : Option HintUse := if b then some u else none

/-- The use a HINT code point is reserved for; none for an instruction that is no HINT (Tables R230-T and R781-T). -/
def hintUse : Instr → Option HintUse
  | .lui rd _ | .auipc rd _ | .andi rd _ _ | .ori rd _ _ | .xori rd _ _ | .addiw rd _ _ | .add rd _ _ | .sub rd _ _
  | .and rd _ _ | .or rd _ _ | .xor rd _ _ | .sll rd _ _ | .srl rd _ _ | .sra rd _ _ | .addw rd _ _ | .subw rd _ _
  | .sllw rd _ _ | .srlw rd _ _ | .sraw rd _ _ => hintIf (rd == 0) .standard
  | .addi rd rs1 imm => hintIf (rd == 0 && (rs1 != 0 || imm != 0)) .standard
  | .fence _ pred succ _ _ => hintIf (pred == 0 || succ == 0) .standard
  | .slti rd _ _ | .sltiu rd _ _ | .slli rd _ _ | .srli rd _ _ | .srai rd _ _ | .slliw rd _ _ | .srliw rd _ _
  | .sraiw rd _ _ | .slt rd _ _ | .sltu rd _ _ => hintIf (rd == 0) .custom
  | .cNop imm => hintIf (imm != 0) .standard
  | .cAddi rd imm => hintIf (rd != 0 && imm == 0) .standard
  | .cLi rd _ | .cLui rd _ | .cMv rd _ | .cAdd rd _ => hintIf (rd == 0) .standard
  | .cSlli rd shamt => hintIf (rd == 0 || shamt == 0) .custom
  | .cSrli _ shamt | .cSrai _ shamt => hintIf (shamt == 0) .custom
  | _ => none

/-! ### Names of registers (Table R33-T) -/

/-- The ABI names of x0 to x31; x8 is also fp. -/
def xNames : List String :=
  ["zero", "ra", "sp", "gp", "tp", "t0", "t1", "t2", "s0", "s1", "a0", "a1", "a2", "a3", "a4", "a5", "a6", "a7"] ++
    ["s2", "s3", "s4", "s5", "s6", "s7", "s8", "s9", "s10", "s11", "t3", "t4", "t5", "t6"]

/-- The ABI names of f0 to f31. -/
def fNames : List String :=
  ["ft0", "ft1", "ft2", "ft3", "ft4", "ft5", "ft6", "ft7", "fs0", "fs1", "fa0", "fa1", "fa2", "fa3", "fa4", "fa5"] ++
    ["fa6", "fa7", "fs2", "fs3", "fs4", "fs5", "fs6", "fs7", "fs8", "fs9", "fs10", "fs11", "ft8", "ft9", "ft10", "ft11"]

/-! ### Pseudoinstructions (R240, R241, R494, R571) -/

/-- The width of a load or store by symbol. -/
inductive GlobalWidth | b | h | w | d
  deriving DecidableEq, Repr

/-- A floating-point format with pseudoinstructions of its own (R241). -/
inductive FloatName | s | d | q
  deriving DecidableEq, Repr

/-- The rows of Table R240-T. `delta` is a symbol's distance from the pc, or of its GOT entry; branch and jump offsets are in
halfwords as in Instr. `li` stands for no one sequence ("Myriad sequences") and is not here. -/
inductive Pseudo
  | la (rd : RegNum) (delta : BitVec 32)
  | laGot (double : Bool) (rd : RegNum) (delta : BitVec 32)
  | lla (rd : RegNum) (delta : BitVec 32)
  | loadGlobal (width : GlobalWidth) (rd : RegNum) (delta : BitVec 32)
  | storeGlobal (width : GlobalWidth) (rd rt : RegNum) (delta : BitVec 32)
  | floatLoadGlobal (double : Bool) (rd rt : RegNum) (delta : BitVec 32)
  | floatStoreGlobal (double : Bool) (rd rt : RegNum) (delta : BitVec 32)
  | nop
  | mv (rd rs : RegNum)
  | not (rd rs : RegNum)
  | neg (rd rs : RegNum)
  | negw (rd rs : RegNum)
  | sextW (rd rs : RegNum)
  | seqz (rd rs : RegNum)
  | snez (rd rs : RegNum)
  | sltz (rd rs : RegNum)
  | sgtz (rd rs : RegNum)
  | fmv (t : FloatName) (rd rs : RegNum)
  | fabs (t : FloatName) (rd rs : RegNum)
  | fneg (t : FloatName) (rd rs : RegNum)
  | beqz (rs : RegNum) (off : BitVec 12)
  | bnez (rs : RegNum) (off : BitVec 12)
  | blez (rs : RegNum) (off : BitVec 12)
  | bgez (rs : RegNum) (off : BitVec 12)
  | bltz (rs : RegNum) (off : BitVec 12)
  | bgtz (rs : RegNum) (off : BitVec 12)
  | bgt (rs rt : RegNum) (off : BitVec 12)
  | ble (rs rt : RegNum) (off : BitVec 12)
  | bgtu (rs rt : RegNum) (off : BitVec 12)
  | bleu (rs rt : RegNum) (off : BitVec 12)
  | j (off : BitVec 20)
  | jal (off : BitVec 20)
  | jr (rs : RegNum)
  | jalr (rs : RegNum)
  | ret
  | call (off : BitVec 32)
  | tail (off : BitVec 32)
  | fence
  | rdinstret (high : Bool) (rd : RegNum)
  | rdcycle (high : Bool) (rd : RegNum)
  | rdtime (high : Bool) (rd : RegNum)
  | csrr (rd : RegNum) (csr : BitVec 12)
  | csrw (csr : BitVec 12) (rs : RegNum)
  | csrs (csr : BitVec 12) (rs : RegNum)
  | csrc (csr : BitVec 12) (rs : RegNum)
  | csrwi (csr : BitVec 12) (imm : BitVec 5)
  | csrsi (csr : BitVec 12) (imm : BitVec 5)
  | csrci (csr : BitVec 12) (imm : BitVec 5)
  | frcsr (rd : RegNum)
  | fscsr (rd rs : RegNum)
  | frrm (rd : RegNum)
  | fsrm (rd rs : RegNum)
  | frflags (rd : RegNum)
  | fsflags (rd rs : RegNum)
  deriving DecidableEq, Repr

/-- The high part of a distance, `delta[31:12] + delta[11]`, which makes up for the sign of the low part (R240). -/
def deltaHigh (delta : BitVec 32) : BitVec 20 := delta.extractLsb' 12 20 + (delta.extractLsb' 11 1).setWidth 20

/-- The low part of a distance. -/
def deltaLow (delta : BitVec 32) : BitVec 12 := delta.extractLsb' 0 12

/-- A load of x[rd]. -/
def globalLoad (width : GlobalWidth) (rd rs1 : RegNum) (imm : BitVec 12) : Instr :=
  match width with
  | .b => .lb rd rs1 imm
  | .h => .lh rd rs1 imm
  | .w => .lw rd rs1 imm
  | .d => .ld rd rs1 imm

/-- A store of x[rs2]. -/
def globalStore (width : GlobalWidth) (rs2 rs1 : RegNum) (imm : BitVec 12) : Instr :=
  match width with
  | .b => .sb rs2 rs1 imm
  | .h => .sh rs2 rs1 imm
  | .w => .sw rs2 rs1 imm
  | .d => .sd rs2 rs1 imm

/-- A counter's CSR: number 0, 1 or 2 of 0xC00, or of 0xC80 for the upper half (Table R41-T). -/
def counterCsr (high : Bool) (n : BitVec 12) : BitVec 12 := (if high then 0xC80#12 else 0xC00#12) + n

/-- The base instructions of a pseudoinstruction (Table R240-T). The forms FSCSR, FSRM and FSFLAGS of one operand are those
with rd = x0. DESIGN CHOICE (log 33): FMV.Q, FABS.Q and FNEG.Q are pseudoinstructions, as R241 has them; R661 says that they
are not in the source. -/
def Pseudo.expand : Pseudo → List Instr
  | .la rd delta | .lla rd delta => [.auipc rd (deltaHigh delta), .addi rd rd (deltaLow delta)]
  | .laGot double rd delta =>
    [.auipc rd (deltaHigh delta), globalLoad (if double then .d else .w) rd rd (deltaLow delta)]
  | .loadGlobal width rd delta => [.auipc rd (deltaHigh delta), globalLoad width rd rd (deltaLow delta)]
  | .storeGlobal width rd rt delta => [.auipc rt (deltaHigh delta), globalStore width rd rt (deltaLow delta)]
  | .floatLoadGlobal double rd rt delta =>
    [.auipc rt (deltaHigh delta), if double then .fld rd rt (deltaLow delta) else .flw rd rt (deltaLow delta)]
  | .floatStoreGlobal double rd rt delta =>
    [.auipc rt (deltaHigh delta), if double then .fsd rd rt (deltaLow delta) else .fsw rd rt (deltaLow delta)]
  | .nop => [.addi 0 0 0]
  | .mv rd rs => [.addi rd rs 0]
  | .not rd rs => [.xori rd rs (BitVec.ofInt 12 (-1))]
  | .neg rd rs => [.sub rd 0 rs]
  | .negw rd rs => [.subw rd 0 rs]
  | .sextW rd rs => [.addiw rd rs 0]
  | .seqz rd rs => [.sltiu rd rs 1]
  | .snez rd rs => [.sltu rd 0 rs]
  | .sltz rd rs => [.slt rd rs 0]
  | .sgtz rd rs => [.slt rd 0 rs]
  | .fmv .s rd rs => [.fsgnjS rd rs rs]
  | .fmv .d rd rs => [.fsgnjD rd rs rs]
  | .fmv .q rd rs => [.fsgnjQ rd rs rs]
  | .fabs .s rd rs => [.fsgnjxS rd rs rs]
  | .fabs .d rd rs => [.fsgnjxD rd rs rs]
  | .fabs .q rd rs => [.fsgnjxQ rd rs rs]
  | .fneg .s rd rs => [.fsgnjnS rd rs rs]
  | .fneg .d rd rs => [.fsgnjnD rd rs rs]
  | .fneg .q rd rs => [.fsgnjnQ rd rs rs]
  | .beqz rs off => [.beq rs 0 off]
  | .bnez rs off => [.bne rs 0 off]
  | .blez rs off => [.bge 0 rs off]
  | .bgez rs off => [.bge rs 0 off]
  | .bltz rs off => [.blt rs 0 off]
  | .bgtz rs off => [.blt 0 rs off]
  | .bgt rs rt off => [.blt rt rs off]
  | .ble rs rt off => [.bge rt rs off]
  | .bgtu rs rt off => [.bltu rt rs off]
  | .bleu rs rt off => [.bgeu rt rs off]
  | .j off => [.jal 0 off]
  | .jal off => [.jal 1 off]
  | .jr rs => [.jalr 0 rs 0]
  | .jalr rs => [.jalr 1 rs 0]
  | .ret => [.jalr 0 1 0]
  | .call off => [.auipc 1 (deltaHigh off), .jalr 1 1 (deltaLow off)]
  | .tail off => [.auipc 6 (deltaHigh off), .jalr 0 6 (deltaLow off)]
  | .fence => [.fence 0 0xF 0xF 0 0]
  | .rdcycle high rd => [.csrrs rd (counterCsr high 0) 0]
  | .rdtime high rd => [.csrrs rd (counterCsr high 1) 0]
  | .rdinstret high rd => [.csrrs rd (counterCsr high 2) 0]
  | .csrr rd csr => [.csrrs rd csr 0]
  | .csrw csr rs => [.csrrw 0 csr rs]
  | .csrs csr rs => [.csrrs 0 csr rs]
  | .csrc csr rs => [.csrrc 0 csr rs]
  | .csrwi csr imm => [.csrrwi 0 csr imm]
  | .csrsi csr imm => [.csrrsi 0 csr imm]
  | .csrci csr imm => [.csrrci 0 csr imm]
  | .frcsr rd => [.csrrs rd 0x003 0]
  | .fscsr rd rs => [.csrrw rd 0x003 rs]
  | .frrm rd => [.csrrs rd 0x002 0]
  | .fsrm rd rs => [.csrrw rd 0x002 rs]
  | .frflags rd => [.csrrs rd 0x001 0]
  | .fsflags rd rs => [.csrrw rd 0x001 rs]

/-! ### The ISA string (R3, R4, R242) -/

/-- A letter where an extension is present. -/
def letterIf (b : Bool) (s : String) : String := if b then s else ""

/-- The name of a configuration in canonical order: RV and the width, I or E, single letters, then the Z names, separated by
underscores. Counters has no name in the string (D2). -/
def isaString (c : Config) : String :=
  (match c.xlen with
    | .rv32 => "RV32"
    | .rv64 => "RV64") ++
  (if c.ext.e then "E" else "I") ++ letterIf c.ext.m "M" ++ letterIf c.ext.a "A" ++ letterIf c.ext.f "F" ++
  letterIf c.ext.d "D" ++ letterIf c.ext.q "Q" ++ letterIf c.ext.c "C" ++ letterIf c.ext.zicsr "_Zicsr" ++
  letterIf c.ext.zifencei "_Zifencei" ++ letterIf c.ext.zam "_Zam" ++ letterIf c.ext.ztso "_Ztso"

end Sys2Proof.Machine
end

