-- ==== Sys2Proof/Machine/Progress.lean ====
section
/-!
DEFINITION. Progress (D34, R886): constrained LR/SC loops and the eventuality guarantee (R448 to R450), and the passing of
real time (R501). Both are properties of infinite runs that the environment has, which a claim about termination or about
time takes as a premise. No step reads them (log 11, log 31).
-/
namespace Sys2Proof.Machine

/-! ### Constrained LR/SC loops (R448) -/

/-- An instruction with its address. -/
structure Placed where
  addr  : Nat
  instr : Instr
  deriving DecidableEq, Repr

/-- The address after an instruction. -/
def Placed.next (p : Placed) : Nat := p.addr + (encode p.instr).bytes.length

/-- A loop of an LR, code between, an SC, and after it the code to retry. -/
structure LrScLoop where
  lr      : Placed
  between : List Placed
  sc      : Placed
  after   : List Placed
  deriving DecidableEq, Repr

/-- The loop's code as it stands in memory. -/
def LrScLoop.code (l : LrScLoop) : List Placed := l.lr :: (l.between ++ l.sc :: l.after)

/-- An address is one of the loop's. -/
def LrScLoop.holds (l : LrScLoop) (a : Int) : Bool := l.code.any fun p => (p.addr : Int) == a

/-- Where retry code may jump back to: the LR and nowhere else (R874), so that code before the LR is never retry code. -/
def LrScLoop.retries (l : LrScLoop) (a : Int) : Bool := (l.lr.addr : Int) == a

/-- The offset of a jump or branch of the base I set, as a signed number. -/
def jumpDistance (i : Instr) : Option Int :=
  match baseForm i with
  | .jal _ imm => some (jumpOffset imm).toInt
  | .beq _ _ imm | .bne _ _ imm | .blt _ _ imm | .bge _ _ imm | .bltu _ _ imm | .bgeu _ _ imm =>
    some (branchOffset imm).toInt
  | _ => none

/-- The instructions that R448 (2) and R780 let a hart execute between the LR and the SC, wherever they jump: the base I set
and its compressed forms, without loads, stores, JALR, FENCE, FENCE.I and SYSTEM. -/
def plainBase (i : Instr) : Bool :=
  match baseForm i with
  | .lui .. | .auipc .. | .jal .. | .beq .. | .bne .. | .blt .. | .bge .. | .bltu .. | .bgeu .. | .addi .. | .slti ..
  | .sltiu .. | .xori .. | .ori .. | .andi .. | .slli .. | .srli .. | .srai .. | .add .. | .sub .. | .sll .. | .slt ..
  | .sltu .. | .xor .. | .srl .. | .sra .. | .or .. | .and .. | .addiw .. | .slliw .. | .srliw .. | .sraiw ..
  | .addw .. | .subw .. | .sllw .. | .srlw .. | .sraw .. => true
  | _ => false

/-- A transfer of control from one address to another that code up to `last` may make: forward, and within the loop not past
`last`, so that the LR and the SC are not jumped over; or out of the loop. DESIGN CHOICE (log 27): a transfer to the same
address, of offset 0, counts as backward; and addresses are compared as plain numbers, so that a step past the top of the
circular address space (R80) does. -/
def LrScLoop.forwardTo (l : LrScLoop) (last src dst : Int) : Bool := src < dst && (dst ≤ last || !l.holds dst)

/-- Where a hart may go on to from an instruction of a loop, not its LR or SC, that it executes: between the LR and the SC
forward only (R448 (2)); after the SC forward, or back to the LR to repeat the sequence (R448 (3), R874). DESIGN CHOICE (log 27): forward is to a
greater number, so that a loop whose code wraps past the top of the address space gets no guarantee. -/
def LrScLoop.mayTransfer (l : LrScLoop) (p : Placed) (dst : Int) : Bool :=
  if l.between.contains p then l.forwardTo l.sc.addr p.addr dst
  else decide ((p.addr : Int) < dst) || l.retries dst

/-- The execution of an instruction of the loop that goes on to `dst`, admitted by R448 (2) and (3): the LR and the SC are,
any other is where it is of the base I set and goes where it may. The rule restricts the dynamic code executed, so code that
stands in the loop and is never executed may be anything (`staysConstrained`). -/
def LrScLoop.admits (l : LrScLoop) (p : Placed) (dst : Int) : Bool :=
  p == l.lr || p == l.sc || (plainBase p.instr && l.mayTransfer p dst)

/-- The instructions stand one after the other in memory, at rising numbers: see log 27 on code that wraps to address 0. -/
def sequential : List Placed → Bool
  | p :: q :: l => q.addr == p.next && sequential (q :: l)
  | _ => true

/-- An LR, or an SC, with its width. -/
def atomicWidth (k : Access) (i : Instr) : Option Nat :=
  match memAccess i with
  | some m => if m.kind = k then some m.width else none
  | none => none

/-- The form of a constrained LR/SC loop as it stands in memory (R448 (1), (5)): at most 16 instructions one after the other,
an LR and an SC of the same width, and after them a jump or branch that repeats the sequence. What R448 asks of the code
that is executed, and of the addresses, is `staysConstrained`. -/
def constrainedLoop (l : LrScLoop) : Bool :=
  l.code.length ≤ 16 && sequential l.code && (atomicWidth .lr l.lr.instr).isSome &&
    atomicWidth .lr l.lr.instr == atomicWidth .sc l.sc.instr &&
    l.after.any fun p => (jumpDistance p.instr).any fun d => l.retries (p.addr + d)

/-! ### Runs -/

/-- The pc is in the code of a loop. -/
def insideLoop (l : LrScLoop) (s : State) : Bool := l.code.any fun p => s.pc == BitVec.ofNat 64 p.addr

/-- The memory at a state holds the loop's code. -/
def holdsLoop (l : LrScLoop) (s : State) : Prop :=
  ∀ p ∈ l.code, ({ s with pc := BitVec.ofNat 64 p.addr } : State).fetch = .ok (encode p.instr) ∧
    decode s.cfg (encode p.instr) = some p.instr

/-- An infinite run. -/
def infiniteRun (r : Nat → State) : Prop := ∀ k, step (r k) = .next (r (k + 1))

/-- The address of the loop's LR, or SC, at a state. -/
def atomicAddress (s : State) (i : Instr) : Option Word := (memAccess i).map fun m => m.addr s

/-- Step k of a run executes the loop's SC and it succeeds. -/
def succeedsAt (r : Nat → State) (l : LrScLoop) (k : Nat) : Prop :=
  ∃ n a, (r k).pc = BitVec.ofNat 64 l.sc.addr ∧ atomicWidth .sc l.sc.instr = some n ∧
    atomicAddress (r k) l.sc.instr = some a ∧ accessCheck (r k) .sc n a = none ∧ scSucceeds (r k) n a = true

/-- Step k of a run traps: the fetch, the decoding or the execution of that step raises an exception. -/
def trapsAt (r : Nat → State) (k : Nat) : Prop := (trapOfFetched (r k) (r k).fetch).isSome = true

/-- While the run stays in the loop from step k on, every instruction it executes is admitted, the LR and the SC lie in a
region with the eventuality property, and the SC's address is its LR's (R448 (2) to (5)). -/
def staysConstrained (r : Nat → State) (l : LrScLoop) (k : Nat) : Prop :=
  ∀ m, k ≤ m → (∀ q, k ≤ q → q ≤ m → insideLoop l (r q) = true) →
    (∀ p ∈ l.code, (r m).pc = BitVec.ofNat 64 p.addr → l.admits p ((r (m + 1)).pc.toNat : Int) = true) ∧
    ∀ p, p = l.lr ∨ p = l.sc → (r m).pc = BitVec.ofNat 64 p.addr → ∀ a, atomicAddress (r m) p.instr = some a →
      (∃ g, regionAt (r m).cfg a.toNat = some g ∧ g.eventual = true) ∧
        (p = l.sc → ∀ v, (r m).reservation = some v → v.lrAddr = a.toNat ∧ some v.lrSize = atomicWidth .sc p.instr)

/-- The eventuality guarantee (R449): a hart that enters a constrained loop eventually makes its SC succeed, leaves the loop
or traps. Its case (b) and the other harts of its case (a) are out of a one-hart run (log 1). To a sequence that is no
constrained loop nothing is promised (R450). -/
def eventuality (r : Nat → State) : Prop :=
  ∀ l k, constrainedLoop l = true → (∀ m, k ≤ m → holdsLoop l (r m)) → insideLoop l (r k) = true →
    staysConstrained r l k → ∃ m, k ≤ m ∧ (succeedsAt r l m ∨ insideLoop l (r m) = false ∨ trapsAt r m)

/-! ### Real time (R501, R886) -/

/-- `time` counts real time: there is a real time, in picoseconds, of every step, that never runs back and passes every
bound, and `time` has advanced by one for every TIME_PERIOD of it, up to its greatest value. It bounds no number of steps. -/
def timeAdvances (r : Nat → State) : Prop :=
  ∃ at_ : Nat → Nat, (∀ k, at_ k ≤ at_ (k + 1)) ∧ (∀ b, ∃ k, b < at_ k) ∧
    ∀ k, (r k).time.toNat =
      min ((r 0).time.toNat + (at_ k / (r 0).cfg.timePeriod - at_ 0 / (r 0).cfg.timePeriod)) (2 ^ 64 - 1)

end Sys2Proof.Machine
end

