-- ==== Sys2Proof/Tests/Slice0.lean ====
section
/-!
SUPPORT. Tests: ill-formed instructions refused, a word of every instruction written out field by field and decoded, one
step of most instructions against the vectors of spec/95_test_vectors.md Part 2, litmus tests of spec/96_litmus_tests.md,
and for every obligation with hypotheses a state that meets them.
-/
namespace Sys2Proof.Tests
open Sys2Proof Sys2Proof.Machine

/-! ### WellFormed: one ill-formed term for each check -/

/-- A configuration with every extension the flags name. -/
def cfgWith (x : Xlen) (f : Ext → Ext) : Config := { decodeConfig x with ext := f (decodeConfig x).ext }

theorem test_refuses_absent_extensions :
    ¬ WellFormed (cfgWith .rv64 fun e => { e with m := false }) (.mul 1 2 3) ∧
    ¬ WellFormed (cfgWith .rv64 fun e => { e with a := false }) (.lrW 1 2 false false) ∧
    ¬ WellFormed (cfgWith .rv64 fun e => { e with f := false }) (.faddS 1 2 3 0) ∧
    ¬ WellFormed (cfgWith .rv64 fun e => { e with d := false }) (.cFld 1 2 3) ∧
    ¬ WellFormed (cfgWith .rv64 fun e => { e with q := false }) (.flq 1 2 3) ∧
    ¬ WellFormed (cfgWith .rv64 fun e => { e with c := false }) (.cNop 0) ∧
    ¬ WellFormed (cfgWith .rv64 fun e => { e with zicsr := false }) (.csrrw 1 3 2) ∧
    ¬ WellFormed (cfgWith .rv64 fun e => { e with zifencei := false }) (.fenceI 0 0 0) := by decide

theorem test_refuses_other_xlen :
    ¬ WellFormed (decodeConfig .rv32) (.ld 1 2 3) ∧ ¬ WellFormed (decodeConfig .rv32) (.addw 1 2 3) ∧
    ¬ WellFormed (decodeConfig .rv64) (.cJal 1) ∧ ¬ WellFormed (decodeConfig .rv64) (.cFlw 1 2 3) ∧
    ¬ WellFormed (decodeConfig .rv64) (.cLq 1 2 3) ∧ ¬ WellFormed (decodeConfig .rv64) (.cSq 1 2 3) ∧
    ¬ WellFormed (decodeConfig .rv64) (.cLqsp 1 2) ∧ ¬ WellFormed (decodeConfig .rv64) (.cSqsp 1 2) := by decide

theorem test_refuses_reserved_operands :
    ¬ WellFormed (decodeConfig .rv32) (.slli 1 2 32) ∧ ¬ WellFormed (decodeConfig .rv32) (.srai 1 2 63) ∧
    ¬ WellFormed (decodeConfig .rv32) (.cSrli 1 32) ∧ ¬ WellFormed (decodeConfig .rv32) (.cSlli 1 32) ∧
    ¬ WellFormed (decodeConfig .rv64) (.fence 8 3 3 0 0) ∧ ¬ WellFormed (decodeConfig .rv64) (.cAddi4spn 1 0) ∧
    ¬ WellFormed (decodeConfig .rv64) (.cAddi 0 1) ∧ ¬ WellFormed (decodeConfig .rv64) (.cAddiw 0 1) ∧
    ¬ WellFormed (decodeConfig .rv64) (.cAddi16sp 0) ∧ ¬ WellFormed (decodeConfig .rv64) (.cLui 2 1) ∧
    ¬ WellFormed (decodeConfig .rv64) (.cLui 1 0) ∧ ¬ WellFormed (decodeConfig .rv64) (.cLwsp 0 1) ∧
    ¬ WellFormed (decodeConfig .rv64) (.cLdsp 0 1) ∧ ¬ WellFormed (decodeConfig .rv64) (.cJr 0) ∧
    ¬ WellFormed (decodeConfig .rv64) (.cJalr 0) ∧ ¬ WellFormed (decodeConfig .rv64) (.cMv 1 0) ∧
    ¬ WellFormed (decodeConfig .rv64) (.cAdd 1 0) := by decide

theorem test_refuses_high_registers_of_rv32e :
    ¬ WellFormed (cfgWith .rv32 fun e => { e with e := true }) (.add 16 1 2) ∧
    ¬ WellFormed (cfgWith .rv32 fun e => { e with e := true }) (.sw 31 1 2) ∧
    WellFormed (cfgWith .rv32 fun e => { e with e := true }) (.add 15 1 2) := by decide

/-! ### Decoding: every instruction, its word written field by field as the pattern of its opcode-table row has them -/

/-- Each code decodes to its instruction, and encodes back. -/
def decodesTo (x : Xlen) (l : List (Code × Instr)) : Bool :=
  l.all fun p => decide (decode (decodeConfig x) p.1 = some p.2) && decide (encode p.2 = p.1)

theorem test_decode_base : decodesTo .rv64 [
    (.word (0b10110011100011010110#20 ++ 0b01011#5 ++ 0b0110111#7), .lui 11 0b10110011100011010110),
    (.word (0b10110011100011010110#20 ++ 0b01011#5 ++ 0b0010111#7), .auipc 11 0b10110011100011010110),
    (.word (0b1#1 ++ 0b0011010110#10 ++ 0b0#1 ++ 0b01100111#8 ++ 0b01011#5 ++ 0b1101111#7), .jal 11 0b10110011100011010110),
    (.word (0b101100111000#12 ++ 0b01100#5 ++ 0b000#3 ++ 0b01011#5 ++ 0b1100111#7), .jalr 11 12 0b101100111000),
    (.word (0b1#1 ++ 0b110011#6 ++ 0b01101#5 ++ 0b01100#5 ++ 0b000#3 ++ 0b1000#4 ++ 0b0#1 ++ 0b1100011#7), .beq 12 13 0b101100111000),
    (.word (0b1#1 ++ 0b110011#6 ++ 0b01101#5 ++ 0b01100#5 ++ 0b001#3 ++ 0b1000#4 ++ 0b0#1 ++ 0b1100011#7), .bne 12 13 0b101100111000),
    (.word (0b1#1 ++ 0b110011#6 ++ 0b01101#5 ++ 0b01100#5 ++ 0b100#3 ++ 0b1000#4 ++ 0b0#1 ++ 0b1100011#7), .blt 12 13 0b101100111000),
    (.word (0b1#1 ++ 0b110011#6 ++ 0b01101#5 ++ 0b01100#5 ++ 0b101#3 ++ 0b1000#4 ++ 0b0#1 ++ 0b1100011#7), .bge 12 13 0b101100111000),
    (.word (0b1#1 ++ 0b110011#6 ++ 0b01101#5 ++ 0b01100#5 ++ 0b110#3 ++ 0b1000#4 ++ 0b0#1 ++ 0b1100011#7), .bltu 12 13 0b101100111000),
    (.word (0b1#1 ++ 0b110011#6 ++ 0b01101#5 ++ 0b01100#5 ++ 0b111#3 ++ 0b1000#4 ++ 0b0#1 ++ 0b1100011#7), .bgeu 12 13 0b101100111000),
    (.word (0b101100111000#12 ++ 0b01100#5 ++ 0b000#3 ++ 0b01011#5 ++ 0b0000011#7), .lb 11 12 0b101100111000),
    (.word (0b101100111000#12 ++ 0b01100#5 ++ 0b001#3 ++ 0b01011#5 ++ 0b0000011#7), .lh 11 12 0b101100111000),
    (.word (0b101100111000#12 ++ 0b01100#5 ++ 0b010#3 ++ 0b01011#5 ++ 0b0000011#7), .lw 11 12 0b101100111000),
    (.word (0b101100111000#12 ++ 0b01100#5 ++ 0b100#3 ++ 0b01011#5 ++ 0b0000011#7), .lbu 11 12 0b101100111000),
    (.word (0b101100111000#12 ++ 0b01100#5 ++ 0b101#3 ++ 0b01011#5 ++ 0b0000011#7), .lhu 11 12 0b101100111000),
    (.word (0b1011001#7 ++ 0b01101#5 ++ 0b01100#5 ++ 0b000#3 ++ 0b11000#5 ++ 0b0100011#7), .sb 13 12 0b101100111000),
    (.word (0b1011001#7 ++ 0b01101#5 ++ 0b01100#5 ++ 0b001#3 ++ 0b11000#5 ++ 0b0100011#7), .sh 13 12 0b101100111000),
    (.word (0b1011001#7 ++ 0b01101#5 ++ 0b01100#5 ++ 0b010#3 ++ 0b11000#5 ++ 0b0100011#7), .sw 13 12 0b101100111000),
    (.word (0b101100111000#12 ++ 0b01100#5 ++ 0b000#3 ++ 0b01011#5 ++ 0b0010011#7), .addi 11 12 0b101100111000),
    (.word (0b101100111000#12 ++ 0b01100#5 ++ 0b010#3 ++ 0b01011#5 ++ 0b0010011#7), .slti 11 12 0b101100111000),
    (.word (0b101100111000#12 ++ 0b01100#5 ++ 0b011#3 ++ 0b01011#5 ++ 0b0010011#7), .sltiu 11 12 0b101100111000),
    (.word (0b101100111000#12 ++ 0b01100#5 ++ 0b100#3 ++ 0b01011#5 ++ 0b0010011#7), .xori 11 12 0b101100111000),
    (.word (0b101100111000#12 ++ 0b01100#5 ++ 0b110#3 ++ 0b01011#5 ++ 0b0010011#7), .ori 11 12 0b101100111000),
    (.word (0b101100111000#12 ++ 0b01100#5 ++ 0b111#3 ++ 0b01011#5 ++ 0b0010011#7), .andi 11 12 0b101100111000),
    (.word (0b000000#6 ++ 0b101101#6 ++ 0b01100#5 ++ 0b001#3 ++ 0b01011#5 ++ 0b0010011#7), .slli 11 12 0b101101),
    (.word (0b000000#6 ++ 0b101101#6 ++ 0b01100#5 ++ 0b101#3 ++ 0b01011#5 ++ 0b0010011#7), .srli 11 12 0b101101),
    (.word (0b010000#6 ++ 0b101101#6 ++ 0b01100#5 ++ 0b101#3 ++ 0b01011#5 ++ 0b0010011#7), .srai 11 12 0b101101),
    (.word (0b0000000#7 ++ 0b01101#5 ++ 0b01100#5 ++ 0b000#3 ++ 0b01011#5 ++ 0b0110011#7), .add 11 12 13),
    (.word (0b0100000#7 ++ 0b01101#5 ++ 0b01100#5 ++ 0b000#3 ++ 0b01011#5 ++ 0b0110011#7), .sub 11 12 13),
    (.word (0b0000000#7 ++ 0b01101#5 ++ 0b01100#5 ++ 0b001#3 ++ 0b01011#5 ++ 0b0110011#7), .sll 11 12 13),
    (.word (0b0000000#7 ++ 0b01101#5 ++ 0b01100#5 ++ 0b010#3 ++ 0b01011#5 ++ 0b0110011#7), .slt 11 12 13),
    (.word (0b0000000#7 ++ 0b01101#5 ++ 0b01100#5 ++ 0b011#3 ++ 0b01011#5 ++ 0b0110011#7), .sltu 11 12 13),
    (.word (0b0000000#7 ++ 0b01101#5 ++ 0b01100#5 ++ 0b100#3 ++ 0b01011#5 ++ 0b0110011#7), .xor 11 12 13),
    (.word (0b0000000#7 ++ 0b01101#5 ++ 0b01100#5 ++ 0b101#3 ++ 0b01011#5 ++ 0b0110011#7), .srl 11 12 13),
    (.word (0b0100000#7 ++ 0b01101#5 ++ 0b01100#5 ++ 0b101#3 ++ 0b01011#5 ++ 0b0110011#7), .sra 11 12 13),
    (.word (0b0000000#7 ++ 0b01101#5 ++ 0b01100#5 ++ 0b110#3 ++ 0b01011#5 ++ 0b0110011#7), .or 11 12 13),
    (.word (0b0000000#7 ++ 0b01101#5 ++ 0b01100#5 ++ 0b111#3 ++ 0b01011#5 ++ 0b0110011#7), .and 11 12 13),
    (.word (0b1000#4 ++ 0b0011#4 ++ 0b0011#4 ++ 0b00011#5 ++ 0b000#3 ++ 0b00100#5 ++ 0b0001111#7), .fenceTso 3 4),
    (.word (0b0000#4 ++ 0b1010#4 ++ 0b0101#4 ++ 0b01100#5 ++ 0b000#3 ++ 0b01011#5 ++ 0b0001111#7), .fence 0b0000 0b1010 0b0101 12 11),
    (.word (0b000000000000#12 ++ 0b00000#5 ++ 0b000#3 ++ 0b00000#5 ++ 0b1110011#7), .ecall),
    (.word (0b000000000001#12 ++ 0b00000#5 ++ 0b000#3 ++ 0b00000#5 ++ 0b1110011#7), .ebreak)] = true := by decide +kernel

theorem test_decode_word : decodesTo .rv64 [
    (.word (0b101100111000#12 ++ 0b01100#5 ++ 0b110#3 ++ 0b01011#5 ++ 0b0000011#7), .lwu 11 12 0b101100111000),
    (.word (0b101100111000#12 ++ 0b01100#5 ++ 0b011#3 ++ 0b01011#5 ++ 0b0000011#7), .ld 11 12 0b101100111000),
    (.word (0b1011001#7 ++ 0b01101#5 ++ 0b01100#5 ++ 0b011#3 ++ 0b11000#5 ++ 0b0100011#7), .sd 13 12 0b101100111000),
    (.word (0b101100111000#12 ++ 0b01100#5 ++ 0b000#3 ++ 0b01011#5 ++ 0b0011011#7), .addiw 11 12 0b101100111000),
    (.word (0b0000000#7 ++ 0b10110#5 ++ 0b01100#5 ++ 0b001#3 ++ 0b01011#5 ++ 0b0011011#7), .slliw 11 12 0b10110),
    (.word (0b0000000#7 ++ 0b10110#5 ++ 0b01100#5 ++ 0b101#3 ++ 0b01011#5 ++ 0b0011011#7), .srliw 11 12 0b10110),
    (.word (0b0100000#7 ++ 0b10110#5 ++ 0b01100#5 ++ 0b101#3 ++ 0b01011#5 ++ 0b0011011#7), .sraiw 11 12 0b10110),
    (.word (0b0000000#7 ++ 0b01101#5 ++ 0b01100#5 ++ 0b000#3 ++ 0b01011#5 ++ 0b0111011#7), .addw 11 12 13),
    (.word (0b0100000#7 ++ 0b01101#5 ++ 0b01100#5 ++ 0b000#3 ++ 0b01011#5 ++ 0b0111011#7), .subw 11 12 13),
    (.word (0b0000000#7 ++ 0b01101#5 ++ 0b01100#5 ++ 0b001#3 ++ 0b01011#5 ++ 0b0111011#7), .sllw 11 12 13),
    (.word (0b0000000#7 ++ 0b01101#5 ++ 0b01100#5 ++ 0b101#3 ++ 0b01011#5 ++ 0b0111011#7), .srlw 11 12 13),
    (.word (0b0100000#7 ++ 0b01101#5 ++ 0b01100#5 ++ 0b101#3 ++ 0b01011#5 ++ 0b0111011#7), .sraw 11 12 13)] = true := by decide

theorem test_decode_system : decodesTo .rv64 [
    (.word (0b101100111000#12 ++ 0b01100#5 ++ 0b001#3 ++ 0b01011#5 ++ 0b0001111#7), .fenceI 11 12 0b101100111000),
    (.word (0b000000000011#12 ++ 0b01100#5 ++ 0b001#3 ++ 0b01011#5 ++ 0b1110011#7), .csrrw 11 0x3 12),
    (.word (0b110000000010#12 ++ 0b01100#5 ++ 0b010#3 ++ 0b01011#5 ++ 0b1110011#7), .csrrs 11 0xc02 12),
    (.word (0b000000000011#12 ++ 0b01100#5 ++ 0b011#3 ++ 0b01011#5 ++ 0b1110011#7), .csrrc 11 0x3 12),
    (.word (0b000000000011#12 ++ 0b10101#5 ++ 0b101#3 ++ 0b01011#5 ++ 0b1110011#7), .csrrwi 11 0x3 21),
    (.word (0b000000000011#12 ++ 0b10101#5 ++ 0b110#3 ++ 0b01011#5 ++ 0b1110011#7), .csrrsi 11 0x3 21),
    (.word (0b000000000011#12 ++ 0b10101#5 ++ 0b111#3 ++ 0b01011#5 ++ 0b1110011#7), .csrrci 11 0x3 21)] = true := by decide

theorem test_decode_multiply : decodesTo .rv64 [
    (.word (0b0000001#7 ++ 0b01101#5 ++ 0b01100#5 ++ 0b000#3 ++ 0b01011#5 ++ 0b0110011#7), .mul 11 12 13),
    (.word (0b0000001#7 ++ 0b01101#5 ++ 0b01100#5 ++ 0b001#3 ++ 0b01011#5 ++ 0b0110011#7), .mulh 11 12 13),
    (.word (0b0000001#7 ++ 0b01101#5 ++ 0b01100#5 ++ 0b010#3 ++ 0b01011#5 ++ 0b0110011#7), .mulhsu 11 12 13),
    (.word (0b0000001#7 ++ 0b01101#5 ++ 0b01100#5 ++ 0b011#3 ++ 0b01011#5 ++ 0b0110011#7), .mulhu 11 12 13),
    (.word (0b0000001#7 ++ 0b01101#5 ++ 0b01100#5 ++ 0b100#3 ++ 0b01011#5 ++ 0b0110011#7), .div 11 12 13),
    (.word (0b0000001#7 ++ 0b01101#5 ++ 0b01100#5 ++ 0b101#3 ++ 0b01011#5 ++ 0b0110011#7), .divu 11 12 13),
    (.word (0b0000001#7 ++ 0b01101#5 ++ 0b01100#5 ++ 0b110#3 ++ 0b01011#5 ++ 0b0110011#7), .rem 11 12 13),
    (.word (0b0000001#7 ++ 0b01101#5 ++ 0b01100#5 ++ 0b111#3 ++ 0b01011#5 ++ 0b0110011#7), .remu 11 12 13),
    (.word (0b0000001#7 ++ 0b01101#5 ++ 0b01100#5 ++ 0b000#3 ++ 0b01011#5 ++ 0b0111011#7), .mulw 11 12 13),
    (.word (0b0000001#7 ++ 0b01101#5 ++ 0b01100#5 ++ 0b100#3 ++ 0b01011#5 ++ 0b0111011#7), .divw 11 12 13),
    (.word (0b0000001#7 ++ 0b01101#5 ++ 0b01100#5 ++ 0b101#3 ++ 0b01011#5 ++ 0b0111011#7), .divuw 11 12 13),
    (.word (0b0000001#7 ++ 0b01101#5 ++ 0b01100#5 ++ 0b110#3 ++ 0b01011#5 ++ 0b0111011#7), .remw 11 12 13),
    (.word (0b0000001#7 ++ 0b01101#5 ++ 0b01100#5 ++ 0b111#3 ++ 0b01011#5 ++ 0b0111011#7), .remuw 11 12 13)] = true := by decide

theorem test_decode_atomic : decodesTo .rv64 [
    (.word (0b00010#5 ++ 0b1#1 ++ 0b0#1 ++ 0b00000#5 ++ 0b01100#5 ++ 0b010#3 ++ 0b01011#5 ++ 0b0101111#7), .lrW 11 12 true false),
    (.word (0b00011#5 ++ 0b1#1 ++ 0b0#1 ++ 0b01101#5 ++ 0b01100#5 ++ 0b010#3 ++ 0b01011#5 ++ 0b0101111#7), .scW 11 12 13 true false),
    (.word (0b00001#5 ++ 0b1#1 ++ 0b0#1 ++ 0b01101#5 ++ 0b01100#5 ++ 0b010#3 ++ 0b01011#5 ++ 0b0101111#7), .amoswapW 11 12 13 true false),
    (.word (0b00000#5 ++ 0b1#1 ++ 0b0#1 ++ 0b01101#5 ++ 0b01100#5 ++ 0b010#3 ++ 0b01011#5 ++ 0b0101111#7), .amoaddW 11 12 13 true false),
    (.word (0b00100#5 ++ 0b1#1 ++ 0b0#1 ++ 0b01101#5 ++ 0b01100#5 ++ 0b010#3 ++ 0b01011#5 ++ 0b0101111#7), .amoxorW 11 12 13 true false),
    (.word (0b01100#5 ++ 0b1#1 ++ 0b0#1 ++ 0b01101#5 ++ 0b01100#5 ++ 0b010#3 ++ 0b01011#5 ++ 0b0101111#7), .amoandW 11 12 13 true false),
    (.word (0b01000#5 ++ 0b1#1 ++ 0b0#1 ++ 0b01101#5 ++ 0b01100#5 ++ 0b010#3 ++ 0b01011#5 ++ 0b0101111#7), .amoorW 11 12 13 true false),
    (.word (0b10000#5 ++ 0b1#1 ++ 0b0#1 ++ 0b01101#5 ++ 0b01100#5 ++ 0b010#3 ++ 0b01011#5 ++ 0b0101111#7), .amominW 11 12 13 true false),
    (.word (0b10100#5 ++ 0b1#1 ++ 0b0#1 ++ 0b01101#5 ++ 0b01100#5 ++ 0b010#3 ++ 0b01011#5 ++ 0b0101111#7), .amomaxW 11 12 13 true false),
    (.word (0b11000#5 ++ 0b1#1 ++ 0b0#1 ++ 0b01101#5 ++ 0b01100#5 ++ 0b010#3 ++ 0b01011#5 ++ 0b0101111#7), .amominuW 11 12 13 true false),
    (.word (0b11100#5 ++ 0b1#1 ++ 0b0#1 ++ 0b01101#5 ++ 0b01100#5 ++ 0b010#3 ++ 0b01011#5 ++ 0b0101111#7), .amomaxuW 11 12 13 true false),
    (.word (0b00010#5 ++ 0b1#1 ++ 0b0#1 ++ 0b00000#5 ++ 0b01100#5 ++ 0b011#3 ++ 0b01011#5 ++ 0b0101111#7), .lrD 11 12 true false),
    (.word (0b00011#5 ++ 0b1#1 ++ 0b0#1 ++ 0b01101#5 ++ 0b01100#5 ++ 0b011#3 ++ 0b01011#5 ++ 0b0101111#7), .scD 11 12 13 true false),
    (.word (0b00001#5 ++ 0b1#1 ++ 0b0#1 ++ 0b01101#5 ++ 0b01100#5 ++ 0b011#3 ++ 0b01011#5 ++ 0b0101111#7), .amoswapD 11 12 13 true false),
    (.word (0b00000#5 ++ 0b1#1 ++ 0b0#1 ++ 0b01101#5 ++ 0b01100#5 ++ 0b011#3 ++ 0b01011#5 ++ 0b0101111#7), .amoaddD 11 12 13 true false),
    (.word (0b00100#5 ++ 0b1#1 ++ 0b0#1 ++ 0b01101#5 ++ 0b01100#5 ++ 0b011#3 ++ 0b01011#5 ++ 0b0101111#7), .amoxorD 11 12 13 true false),
    (.word (0b01100#5 ++ 0b1#1 ++ 0b0#1 ++ 0b01101#5 ++ 0b01100#5 ++ 0b011#3 ++ 0b01011#5 ++ 0b0101111#7), .amoandD 11 12 13 true false),
    (.word (0b01000#5 ++ 0b1#1 ++ 0b0#1 ++ 0b01101#5 ++ 0b01100#5 ++ 0b011#3 ++ 0b01011#5 ++ 0b0101111#7), .amoorD 11 12 13 true false),
    (.word (0b10000#5 ++ 0b1#1 ++ 0b0#1 ++ 0b01101#5 ++ 0b01100#5 ++ 0b011#3 ++ 0b01011#5 ++ 0b0101111#7), .amominD 11 12 13 true false),
    (.word (0b10100#5 ++ 0b1#1 ++ 0b0#1 ++ 0b01101#5 ++ 0b01100#5 ++ 0b011#3 ++ 0b01011#5 ++ 0b0101111#7), .amomaxD 11 12 13 true false),
    (.word (0b11000#5 ++ 0b1#1 ++ 0b0#1 ++ 0b01101#5 ++ 0b01100#5 ++ 0b011#3 ++ 0b01011#5 ++ 0b0101111#7), .amominuD 11 12 13 true false),
    (.word (0b11100#5 ++ 0b1#1 ++ 0b0#1 ++ 0b01101#5 ++ 0b01100#5 ++ 0b011#3 ++ 0b01011#5 ++ 0b0101111#7), .amomaxuD 11 12 13 true false)] = true := by decide

theorem test_decode_single : decodesTo .rv64 [
    (.word (0b101100111000#12 ++ 0b01100#5 ++ 0b010#3 ++ 0b01011#5 ++ 0b0000111#7), .flw 11 12 0b101100111000),
    (.word (0b1011001#7 ++ 0b01101#5 ++ 0b01100#5 ++ 0b010#3 ++ 0b11000#5 ++ 0b0100111#7), .fsw 13 12 0b101100111000),
    (.word (0b01110#5 ++ 0b00#2 ++ 0b01101#5 ++ 0b01100#5 ++ 0b001#3 ++ 0b01011#5 ++ 0b1000011#7), .fmaddS 11 12 13 14 1),
    (.word (0b01110#5 ++ 0b00#2 ++ 0b01101#5 ++ 0b01100#5 ++ 0b001#3 ++ 0b01011#5 ++ 0b1000111#7), .fmsubS 11 12 13 14 1),
    (.word (0b01110#5 ++ 0b00#2 ++ 0b01101#5 ++ 0b01100#5 ++ 0b001#3 ++ 0b01011#5 ++ 0b1001011#7), .fnmsubS 11 12 13 14 1),
    (.word (0b01110#5 ++ 0b00#2 ++ 0b01101#5 ++ 0b01100#5 ++ 0b001#3 ++ 0b01011#5 ++ 0b1001111#7), .fnmaddS 11 12 13 14 1),
    (.word (0b0000000#7 ++ 0b01101#5 ++ 0b01100#5 ++ 0b001#3 ++ 0b01011#5 ++ 0b1010011#7), .faddS 11 12 13 1),
    (.word (0b0000100#7 ++ 0b01101#5 ++ 0b01100#5 ++ 0b001#3 ++ 0b01011#5 ++ 0b1010011#7), .fsubS 11 12 13 1),
    (.word (0b0001000#7 ++ 0b01101#5 ++ 0b01100#5 ++ 0b001#3 ++ 0b01011#5 ++ 0b1010011#7), .fmulS 11 12 13 1),
    (.word (0b0001100#7 ++ 0b01101#5 ++ 0b01100#5 ++ 0b001#3 ++ 0b01011#5 ++ 0b1010011#7), .fdivS 11 12 13 1),
    (.word (0b0101100#7 ++ 0b00000#5 ++ 0b01100#5 ++ 0b001#3 ++ 0b01011#5 ++ 0b1010011#7), .fsqrtS 11 12 1),
    (.word (0b0010000#7 ++ 0b01101#5 ++ 0b01100#5 ++ 0b000#3 ++ 0b01011#5 ++ 0b1010011#7), .fsgnjS 11 12 13),
    (.word (0b0010000#7 ++ 0b01101#5 ++ 0b01100#5 ++ 0b001#3 ++ 0b01011#5 ++ 0b1010011#7), .fsgnjnS 11 12 13),
    (.word (0b0010000#7 ++ 0b01101#5 ++ 0b01100#5 ++ 0b010#3 ++ 0b01011#5 ++ 0b1010011#7), .fsgnjxS 11 12 13),
    (.word (0b0010100#7 ++ 0b01101#5 ++ 0b01100#5 ++ 0b000#3 ++ 0b01011#5 ++ 0b1010011#7), .fminS 11 12 13),
    (.word (0b0010100#7 ++ 0b01101#5 ++ 0b01100#5 ++ 0b001#3 ++ 0b01011#5 ++ 0b1010011#7), .fmaxS 11 12 13),
    (.word (0b1010000#7 ++ 0b01101#5 ++ 0b01100#5 ++ 0b010#3 ++ 0b01011#5 ++ 0b1010011#7), .feqS 11 12 13),
    (.word (0b1010000#7 ++ 0b01101#5 ++ 0b01100#5 ++ 0b001#3 ++ 0b01011#5 ++ 0b1010011#7), .fltS 11 12 13),
    (.word (0b1010000#7 ++ 0b01101#5 ++ 0b01100#5 ++ 0b000#3 ++ 0b01011#5 ++ 0b1010011#7), .fleS 11 12 13),
    (.word (0b1110000#7 ++ 0b00000#5 ++ 0b01100#5 ++ 0b001#3 ++ 0b01011#5 ++ 0b1010011#7), .fclassS 11 12),
    (.word (0b1100000#7 ++ 0b00000#5 ++ 0b01100#5 ++ 0b001#3 ++ 0b01011#5 ++ 0b1010011#7), .fcvtWS 11 12 1),
    (.word (0b1100000#7 ++ 0b00001#5 ++ 0b01100#5 ++ 0b001#3 ++ 0b01011#5 ++ 0b1010011#7), .fcvtWuS 11 12 1),
    (.word (0b1101000#7 ++ 0b00000#5 ++ 0b01100#5 ++ 0b001#3 ++ 0b01011#5 ++ 0b1010011#7), .fcvtSW 11 12 1),
    (.word (0b1101000#7 ++ 0b00001#5 ++ 0b01100#5 ++ 0b001#3 ++ 0b01011#5 ++ 0b1010011#7), .fcvtSWu 11 12 1),
    (.word (0b1110000#7 ++ 0b00000#5 ++ 0b01100#5 ++ 0b000#3 ++ 0b01011#5 ++ 0b1010011#7), .fmvXW 11 12),
    (.word (0b1111000#7 ++ 0b00000#5 ++ 0b01100#5 ++ 0b000#3 ++ 0b01011#5 ++ 0b1010011#7), .fmvWX 11 12),
    (.word (0b1100000#7 ++ 0b00010#5 ++ 0b01100#5 ++ 0b001#3 ++ 0b01011#5 ++ 0b1010011#7), .fcvtLS 11 12 1),
    (.word (0b1100000#7 ++ 0b00011#5 ++ 0b01100#5 ++ 0b001#3 ++ 0b01011#5 ++ 0b1010011#7), .fcvtLuS 11 12 1),
    (.word (0b1101000#7 ++ 0b00010#5 ++ 0b01100#5 ++ 0b001#3 ++ 0b01011#5 ++ 0b1010011#7), .fcvtSL 11 12 1),
    (.word (0b1101000#7 ++ 0b00011#5 ++ 0b01100#5 ++ 0b001#3 ++ 0b01011#5 ++ 0b1010011#7), .fcvtSLu 11 12 1)] = true := by decide

theorem test_decode_double : decodesTo .rv64 [
    (.word (0b101100111000#12 ++ 0b01100#5 ++ 0b011#3 ++ 0b01011#5 ++ 0b0000111#7), .fld 11 12 0b101100111000),
    (.word (0b1011001#7 ++ 0b01101#5 ++ 0b01100#5 ++ 0b011#3 ++ 0b11000#5 ++ 0b0100111#7), .fsd 13 12 0b101100111000),
    (.word (0b01110#5 ++ 0b01#2 ++ 0b01101#5 ++ 0b01100#5 ++ 0b001#3 ++ 0b01011#5 ++ 0b1000011#7), .fmaddD 11 12 13 14 1),
    (.word (0b01110#5 ++ 0b01#2 ++ 0b01101#5 ++ 0b01100#5 ++ 0b001#3 ++ 0b01011#5 ++ 0b1000111#7), .fmsubD 11 12 13 14 1),
    (.word (0b01110#5 ++ 0b01#2 ++ 0b01101#5 ++ 0b01100#5 ++ 0b001#3 ++ 0b01011#5 ++ 0b1001011#7), .fnmsubD 11 12 13 14 1),
    (.word (0b01110#5 ++ 0b01#2 ++ 0b01101#5 ++ 0b01100#5 ++ 0b001#3 ++ 0b01011#5 ++ 0b1001111#7), .fnmaddD 11 12 13 14 1),
    (.word (0b0000001#7 ++ 0b01101#5 ++ 0b01100#5 ++ 0b001#3 ++ 0b01011#5 ++ 0b1010011#7), .faddD 11 12 13 1),
    (.word (0b0000101#7 ++ 0b01101#5 ++ 0b01100#5 ++ 0b001#3 ++ 0b01011#5 ++ 0b1010011#7), .fsubD 11 12 13 1),
    (.word (0b0001001#7 ++ 0b01101#5 ++ 0b01100#5 ++ 0b001#3 ++ 0b01011#5 ++ 0b1010011#7), .fmulD 11 12 13 1),
    (.word (0b0001101#7 ++ 0b01101#5 ++ 0b01100#5 ++ 0b001#3 ++ 0b01011#5 ++ 0b1010011#7), .fdivD 11 12 13 1),
    (.word (0b0101101#7 ++ 0b00000#5 ++ 0b01100#5 ++ 0b001#3 ++ 0b01011#5 ++ 0b1010011#7), .fsqrtD 11 12 1),
    (.word (0b0010001#7 ++ 0b01101#5 ++ 0b01100#5 ++ 0b000#3 ++ 0b01011#5 ++ 0b1010011#7), .fsgnjD 11 12 13),
    (.word (0b0010001#7 ++ 0b01101#5 ++ 0b01100#5 ++ 0b001#3 ++ 0b01011#5 ++ 0b1010011#7), .fsgnjnD 11 12 13),
    (.word (0b0010001#7 ++ 0b01101#5 ++ 0b01100#5 ++ 0b010#3 ++ 0b01011#5 ++ 0b1010011#7), .fsgnjxD 11 12 13),
    (.word (0b0010101#7 ++ 0b01101#5 ++ 0b01100#5 ++ 0b000#3 ++ 0b01011#5 ++ 0b1010011#7), .fminD 11 12 13),
    (.word (0b0010101#7 ++ 0b01101#5 ++ 0b01100#5 ++ 0b001#3 ++ 0b01011#5 ++ 0b1010011#7), .fmaxD 11 12 13),
    (.word (0b0100000#7 ++ 0b00001#5 ++ 0b01100#5 ++ 0b001#3 ++ 0b01011#5 ++ 0b1010011#7), .fcvtSD 11 12 1),
    (.word (0b0100001#7 ++ 0b00000#5 ++ 0b01100#5 ++ 0b001#3 ++ 0b01011#5 ++ 0b1010011#7), .fcvtDS 11 12 1),
    (.word (0b1010001#7 ++ 0b01101#5 ++ 0b01100#5 ++ 0b010#3 ++ 0b01011#5 ++ 0b1010011#7), .feqD 11 12 13),
    (.word (0b1010001#7 ++ 0b01101#5 ++ 0b01100#5 ++ 0b001#3 ++ 0b01011#5 ++ 0b1010011#7), .fltD 11 12 13),
    (.word (0b1010001#7 ++ 0b01101#5 ++ 0b01100#5 ++ 0b000#3 ++ 0b01011#5 ++ 0b1010011#7), .fleD 11 12 13),
    (.word (0b1110001#7 ++ 0b00000#5 ++ 0b01100#5 ++ 0b001#3 ++ 0b01011#5 ++ 0b1010011#7), .fclassD 11 12),
    (.word (0b1100001#7 ++ 0b00000#5 ++ 0b01100#5 ++ 0b001#3 ++ 0b01011#5 ++ 0b1010011#7), .fcvtWD 11 12 1),
    (.word (0b1100001#7 ++ 0b00001#5 ++ 0b01100#5 ++ 0b001#3 ++ 0b01011#5 ++ 0b1010011#7), .fcvtWuD 11 12 1),
    (.word (0b1101001#7 ++ 0b00000#5 ++ 0b01100#5 ++ 0b001#3 ++ 0b01011#5 ++ 0b1010011#7), .fcvtDW 11 12 1),
    (.word (0b1101001#7 ++ 0b00001#5 ++ 0b01100#5 ++ 0b001#3 ++ 0b01011#5 ++ 0b1010011#7), .fcvtDWu 11 12 1),
    (.word (0b1100001#7 ++ 0b00010#5 ++ 0b01100#5 ++ 0b001#3 ++ 0b01011#5 ++ 0b1010011#7), .fcvtLD 11 12 1),
    (.word (0b1100001#7 ++ 0b00011#5 ++ 0b01100#5 ++ 0b001#3 ++ 0b01011#5 ++ 0b1010011#7), .fcvtLuD 11 12 1),
    (.word (0b1101001#7 ++ 0b00010#5 ++ 0b01100#5 ++ 0b001#3 ++ 0b01011#5 ++ 0b1010011#7), .fcvtDL 11 12 1),
    (.word (0b1101001#7 ++ 0b00011#5 ++ 0b01100#5 ++ 0b001#3 ++ 0b01011#5 ++ 0b1010011#7), .fcvtDLu 11 12 1),
    (.word (0b1110001#7 ++ 0b00000#5 ++ 0b01100#5 ++ 0b000#3 ++ 0b01011#5 ++ 0b1010011#7), .fmvXD 11 12),
    (.word (0b1111001#7 ++ 0b00000#5 ++ 0b01100#5 ++ 0b000#3 ++ 0b01011#5 ++ 0b1010011#7), .fmvDX 11 12)] = true := by decide +kernel

theorem test_decode_quad : decodesTo .rv64 [
    (.word (0b101100111000#12 ++ 0b01100#5 ++ 0b100#3 ++ 0b01011#5 ++ 0b0000111#7), .flq 11 12 0b101100111000),
    (.word (0b1011001#7 ++ 0b01101#5 ++ 0b01100#5 ++ 0b100#3 ++ 0b11000#5 ++ 0b0100111#7), .fsq 13 12 0b101100111000),
    (.word (0b01110#5 ++ 0b11#2 ++ 0b01101#5 ++ 0b01100#5 ++ 0b001#3 ++ 0b01011#5 ++ 0b1000011#7), .fmaddQ 11 12 13 14 1),
    (.word (0b01110#5 ++ 0b11#2 ++ 0b01101#5 ++ 0b01100#5 ++ 0b001#3 ++ 0b01011#5 ++ 0b1000111#7), .fmsubQ 11 12 13 14 1),
    (.word (0b01110#5 ++ 0b11#2 ++ 0b01101#5 ++ 0b01100#5 ++ 0b001#3 ++ 0b01011#5 ++ 0b1001011#7), .fnmsubQ 11 12 13 14 1),
    (.word (0b01110#5 ++ 0b11#2 ++ 0b01101#5 ++ 0b01100#5 ++ 0b001#3 ++ 0b01011#5 ++ 0b1001111#7), .fnmaddQ 11 12 13 14 1),
    (.word (0b0000011#7 ++ 0b01101#5 ++ 0b01100#5 ++ 0b001#3 ++ 0b01011#5 ++ 0b1010011#7), .faddQ 11 12 13 1),
    (.word (0b0000111#7 ++ 0b01101#5 ++ 0b01100#5 ++ 0b001#3 ++ 0b01011#5 ++ 0b1010011#7), .fsubQ 11 12 13 1),
    (.word (0b0001011#7 ++ 0b01101#5 ++ 0b01100#5 ++ 0b001#3 ++ 0b01011#5 ++ 0b1010011#7), .fmulQ 11 12 13 1),
    (.word (0b0001111#7 ++ 0b01101#5 ++ 0b01100#5 ++ 0b001#3 ++ 0b01011#5 ++ 0b1010011#7), .fdivQ 11 12 13 1),
    (.word (0b0101111#7 ++ 0b00000#5 ++ 0b01100#5 ++ 0b001#3 ++ 0b01011#5 ++ 0b1010011#7), .fsqrtQ 11 12 1),
    (.word (0b0010011#7 ++ 0b01101#5 ++ 0b01100#5 ++ 0b000#3 ++ 0b01011#5 ++ 0b1010011#7), .fsgnjQ 11 12 13),
    (.word (0b0010011#7 ++ 0b01101#5 ++ 0b01100#5 ++ 0b001#3 ++ 0b01011#5 ++ 0b1010011#7), .fsgnjnQ 11 12 13),
    (.word (0b0010011#7 ++ 0b01101#5 ++ 0b01100#5 ++ 0b010#3 ++ 0b01011#5 ++ 0b1010011#7), .fsgnjxQ 11 12 13),
    (.word (0b0010111#7 ++ 0b01101#5 ++ 0b01100#5 ++ 0b000#3 ++ 0b01011#5 ++ 0b1010011#7), .fminQ 11 12 13),
    (.word (0b0010111#7 ++ 0b01101#5 ++ 0b01100#5 ++ 0b001#3 ++ 0b01011#5 ++ 0b1010011#7), .fmaxQ 11 12 13),
    (.word (0b0100000#7 ++ 0b00011#5 ++ 0b01100#5 ++ 0b001#3 ++ 0b01011#5 ++ 0b1010011#7), .fcvtSQ 11 12 1),
    (.word (0b0100011#7 ++ 0b00000#5 ++ 0b01100#5 ++ 0b001#3 ++ 0b01011#5 ++ 0b1010011#7), .fcvtQS 11 12 1),
    (.word (0b0100001#7 ++ 0b00011#5 ++ 0b01100#5 ++ 0b001#3 ++ 0b01011#5 ++ 0b1010011#7), .fcvtDQ 11 12 1),
    (.word (0b0100011#7 ++ 0b00001#5 ++ 0b01100#5 ++ 0b001#3 ++ 0b01011#5 ++ 0b1010011#7), .fcvtQD 11 12 1),
    (.word (0b1010011#7 ++ 0b01101#5 ++ 0b01100#5 ++ 0b010#3 ++ 0b01011#5 ++ 0b1010011#7), .feqQ 11 12 13),
    (.word (0b1010011#7 ++ 0b01101#5 ++ 0b01100#5 ++ 0b001#3 ++ 0b01011#5 ++ 0b1010011#7), .fltQ 11 12 13),
    (.word (0b1010011#7 ++ 0b01101#5 ++ 0b01100#5 ++ 0b000#3 ++ 0b01011#5 ++ 0b1010011#7), .fleQ 11 12 13),
    (.word (0b1110011#7 ++ 0b00000#5 ++ 0b01100#5 ++ 0b001#3 ++ 0b01011#5 ++ 0b1010011#7), .fclassQ 11 12),
    (.word (0b1100011#7 ++ 0b00000#5 ++ 0b01100#5 ++ 0b001#3 ++ 0b01011#5 ++ 0b1010011#7), .fcvtWQ 11 12 1),
    (.word (0b1100011#7 ++ 0b00001#5 ++ 0b01100#5 ++ 0b001#3 ++ 0b01011#5 ++ 0b1010011#7), .fcvtWuQ 11 12 1),
    (.word (0b1101011#7 ++ 0b00000#5 ++ 0b01100#5 ++ 0b001#3 ++ 0b01011#5 ++ 0b1010011#7), .fcvtQW 11 12 1),
    (.word (0b1101011#7 ++ 0b00001#5 ++ 0b01100#5 ++ 0b001#3 ++ 0b01011#5 ++ 0b1010011#7), .fcvtQWu 11 12 1),
    (.word (0b1100011#7 ++ 0b00010#5 ++ 0b01100#5 ++ 0b001#3 ++ 0b01011#5 ++ 0b1010011#7), .fcvtLQ 11 12 1),
    (.word (0b1100011#7 ++ 0b00011#5 ++ 0b01100#5 ++ 0b001#3 ++ 0b01011#5 ++ 0b1010011#7), .fcvtLuQ 11 12 1),
    (.word (0b1101011#7 ++ 0b00010#5 ++ 0b01100#5 ++ 0b001#3 ++ 0b01011#5 ++ 0b1010011#7), .fcvtQL 11 12 1),
    (.word (0b1101011#7 ++ 0b00011#5 ++ 0b01100#5 ++ 0b001#3 ++ 0b01011#5 ++ 0b1010011#7), .fcvtQLu 11 12 1)] = true := by decide

theorem test_decode_compressed : decodesTo .rv64 [
    (.half (0b000#3 ++ 0b00#2 ++ 0b1011#4 ++ 0b1#1 ++ 0b1#1 ++ 0b001#3 ++ 0b00#2), .cAddi4spn 1 0b10110011),
    (.half (0b001#3 ++ 0b110#3 ++ 0b010#3 ++ 0b10#2 ++ 0b001#3 ++ 0b00#2), .cFld 1 2 0b10110),
    (.half (0b010#3 ++ 0b011#3 ++ 0b010#3 ++ 0b0#1 ++ 0b1#1 ++ 0b001#3 ++ 0b00#2), .cLw 1 2 0b10110),
    (.half (0b011#3 ++ 0b110#3 ++ 0b010#3 ++ 0b10#2 ++ 0b001#3 ++ 0b00#2), .cLd 1 2 0b10110),
    (.half (0b101#3 ++ 0b110#3 ++ 0b010#3 ++ 0b10#2 ++ 0b011#3 ++ 0b00#2), .cFsd 3 2 0b10110),
    (.half (0b110#3 ++ 0b011#3 ++ 0b010#3 ++ 0b0#1 ++ 0b1#1 ++ 0b011#3 ++ 0b00#2), .cSw 3 2 0b10110),
    (.half (0b111#3 ++ 0b110#3 ++ 0b010#3 ++ 0b10#2 ++ 0b011#3 ++ 0b00#2), .cSd 3 2 0b10110),
    (.half (0b000#3 ++ 0b0#1 ++ 0b00000#5 ++ 0b00000#5 ++ 0b01#2), .cNop 0b000000),
    (.half (0b000#3 ++ 0b1#1 ++ 0b01011#5 ++ 0b01100#5 ++ 0b01#2), .cAddi 11 0b101100),
    (.half (0b001#3 ++ 0b1#1 ++ 0b01011#5 ++ 0b01100#5 ++ 0b01#2), .cAddiw 11 0b101100),
    (.half (0b010#3 ++ 0b1#1 ++ 0b01011#5 ++ 0b01100#5 ++ 0b01#2), .cLi 11 0b101100),
    (.half (0b011#3 ++ 0b1#1 ++ 0b00010#5 ++ 0b0#1 ++ 0b1#1 ++ 0b01#2 ++ 0b0#1 ++ 0b01#2), .cAddi16sp 0b101100),
    (.half (0b011#3 ++ 0b1#1 ++ 0b01011#5 ++ 0b01100#5 ++ 0b01#2), .cLui 11 0b101100),
    (.half (0b100#3 ++ 0b1#1 ++ 0b00#2 ++ 0b001#3 ++ 0b01100#5 ++ 0b01#2), .cSrli 1 0b101100),
    (.half (0b100#3 ++ 0b1#1 ++ 0b01#2 ++ 0b001#3 ++ 0b01100#5 ++ 0b01#2), .cSrai 1 0b101100),
    (.half (0b100#3 ++ 0b1#1 ++ 0b10#2 ++ 0b001#3 ++ 0b01100#5 ++ 0b01#2), .cAndi 1 0b101100),
    (.half (0b100#3 ++ 0b0#1 ++ 0b11#2 ++ 0b001#3 ++ 0b00#2 ++ 0b011#3 ++ 0b01#2), .cSub 1 3),
    (.half (0b100#3 ++ 0b0#1 ++ 0b11#2 ++ 0b001#3 ++ 0b01#2 ++ 0b011#3 ++ 0b01#2), .cXor 1 3),
    (.half (0b100#3 ++ 0b0#1 ++ 0b11#2 ++ 0b001#3 ++ 0b10#2 ++ 0b011#3 ++ 0b01#2), .cOr 1 3),
    (.half (0b100#3 ++ 0b0#1 ++ 0b11#2 ++ 0b001#3 ++ 0b11#2 ++ 0b011#3 ++ 0b01#2), .cAnd 1 3),
    (.half (0b100#3 ++ 0b1#1 ++ 0b11#2 ++ 0b001#3 ++ 0b00#2 ++ 0b011#3 ++ 0b01#2), .cSubw 1 3),
    (.half (0b100#3 ++ 0b1#1 ++ 0b11#2 ++ 0b001#3 ++ 0b01#2 ++ 0b011#3 ++ 0b01#2), .cAddw 1 3),
    (.half (0b101#3 ++ 0b1#1 ++ 0b1#1 ++ 0b11#2 ++ 0b0#1 ++ 0b0#1 ++ 0b0#1 ++ 0b100#3 ++ 0b1#1 ++ 0b01#2), .cJ 0b10110011100),
    (.half (0b110#3 ++ 0b1#1 ++ 0b00#2 ++ 0b010#3 ++ 0b01#2 ++ 0b11#2 ++ 0b1#1 ++ 0b01#2), .cBeqz 2 0b10110011),
    (.half (0b111#3 ++ 0b1#1 ++ 0b00#2 ++ 0b010#3 ++ 0b01#2 ++ 0b11#2 ++ 0b1#1 ++ 0b01#2), .cBnez 2 0b10110011),
    (.half (0b000#3 ++ 0b1#1 ++ 0b01011#5 ++ 0b01100#5 ++ 0b10#2), .cSlli 11 0b101100),
    (.half (0b001#3 ++ 0b1#1 ++ 0b01011#5 ++ 0b00#2 ++ 0b101#3 ++ 0b10#2), .cFldsp 11 0b101100),
    (.half (0b010#3 ++ 0b1#1 ++ 0b01011#5 ++ 0b100#3 ++ 0b10#2 ++ 0b10#2), .cLwsp 11 0b101100),
    (.half (0b011#3 ++ 0b1#1 ++ 0b01011#5 ++ 0b00#2 ++ 0b101#3 ++ 0b10#2), .cLdsp 11 0b101100),
    (.half (0b100#3 ++ 0b0#1 ++ 0b01100#5 ++ 0b00000#5 ++ 0b10#2), .cJr 12),
    (.half (0b100#3 ++ 0b0#1 ++ 0b01011#5 ++ 0b01101#5 ++ 0b10#2), .cMv 11 13),
    (.half (0b100#3 ++ 0b1#1 ++ 0b00000#5 ++ 0b00000#5 ++ 0b10#2), .cEbreak),
    (.half (0b100#3 ++ 0b1#1 ++ 0b01100#5 ++ 0b00000#5 ++ 0b10#2), .cJalr 12),
    (.half (0b100#3 ++ 0b1#1 ++ 0b01011#5 ++ 0b01101#5 ++ 0b10#2), .cAdd 11 13),
    (.half (0b101#3 ++ 0b100#3 ++ 0b101#3 ++ 0b01101#5 ++ 0b10#2), .cFsdsp 13 0b101100),
    (.half (0b110#3 ++ 0b1100#4 ++ 0b10#2 ++ 0b01101#5 ++ 0b10#2), .cSwsp 13 0b101100),
    (.half (0b111#3 ++ 0b100#3 ++ 0b101#3 ++ 0b01101#5 ++ 0b10#2), .cSdsp 13 0b101100)] = true := by decide

theorem test_decode_compressed_rv32 : decodesTo .rv32 [
    (.half (0b011#3 ++ 0b011#3 ++ 0b010#3 ++ 0b0#1 ++ 0b1#1 ++ 0b001#3 ++ 0b00#2), .cFlw 1 2 0b10110),
    (.half (0b111#3 ++ 0b011#3 ++ 0b010#3 ++ 0b0#1 ++ 0b1#1 ++ 0b011#3 ++ 0b00#2), .cFsw 3 2 0b10110),
    (.half (0b001#3 ++ 0b1#1 ++ 0b1#1 ++ 0b11#2 ++ 0b0#1 ++ 0b0#1 ++ 0b0#1 ++ 0b100#3 ++ 0b1#1 ++ 0b01#2), .cJal 0b10110011100),
    (.half (0b011#3 ++ 0b1#1 ++ 0b01011#5 ++ 0b100#3 ++ 0b10#2 ++ 0b10#2), .cFlwsp 11 0b101100),
    (.half (0b111#3 ++ 0b1100#4 ++ 0b10#2 ++ 0b01101#5 ++ 0b10#2), .cFswsp 13 0b101100)] = true := by decide

/-- The four forms of XLEN = 128, encoded (at 32 and 64 their code points decode to C.FLD, C.FSD, C.FLDSP and C.FSDSP). -/
theorem test_encode_rv128_forms : encode (.cLq 1 2 0b10110) = .half (0b001#3 ++ 0b10#2 ++ 0b1#1 ++ 0b010#3 ++ 0b01#2 ++ 0b001#3 ++ 0b00#2) ∧
    encode (.cSq 3 2 0b10110) = .half (0b101#3 ++ 0b10#2 ++ 0b1#1 ++ 0b010#3 ++ 0b01#2 ++ 0b011#3 ++ 0b00#2) ∧
    encode (.cLqsp 11 0b101100) = .half (0b001#3 ++ 0b0#1 ++ 0b01011#5 ++ 0b0#1 ++ 0b1011#4 ++ 0b10#2) ∧
    encode (.cSqsp 13 0b101100) = .half (0b101#3 ++ 0b00#2 ++ 0b1011#4 ++ 0b01101#5 ++ 0b10#2) := by decide

/-! ### One step of most instructions, against spec/95_test_vectors.md Part 2 -/

/-- A vector: the state before, and what the table gives after. -/
structure Vec where
  xlen : Xlen
  flen : Nat
  code : Code
  xs   : List (Nat × Nat)
  fs   : List (Nat × Nat)
  mem  : List (Nat × Nat)
  fcsr : Nat
  pc   : Nat
  outX : List (Nat × Nat)
  outF : List (Nat × Nat)
  outM : List (Nat × Nat)
  outC : Option Nat
  outP : Option Nat

/-- Registers of a list, the others 0. -/
def fill {w : Nat} (l : List (Nat × Nat)) : Vector (BitVec w) 32 :=
  Vector.ofFn fun i => BitVec.ofNat w (((l.find? fun p => p.1 == i.val).map Prod.snd).getD 0)

/-- A small state: registers and bytes given, everything else as after reset. -/
def start (x : Xlen) (flen pc fcsr : Nat) (xs fs mem : List (Nat × Nat)) : State :=
  { State.reset with
    cfg := { resetConfig with xlen := x, ext := { resetConfig.ext with d := decide (64 ≤ flen), q := decide (128 ≤ flen) } }
    x := fill xs
    f := fill fs
    fcsr := BitVec.ofNat 32 fcsr
    pc := BitVec.ofNat 64 pc
    mem := mem.foldl (fun m c => writeByte m c.1 (BitVec.ofNat 8 c.2)) [] }

/-- The registers, bytes, fcsr and pc a vector names have the values it gives. -/
def Vec.holds (v : Vec) : Bool :=
  let s := start v.xlen v.flen v.pc v.fcsr v.xs v.fs v.mem
  match (decode s.cfg v.code).map fun i => exec i s with
  | some (.next t) =>
    (v.outX.all fun p => (t.rx (BitVec.ofNat 5 p.1)).toNat == p.2) &&
      (v.outF.all fun p => (t.f[(BitVec.ofNat 5 p.1).toNat]'(BitVec.isLt _)).toNat == p.2) &&
      (v.outM.all fun p => (readByte t.mem p.1).toNat == p.2) &&
      (v.outC.all fun c => t.fcsr.toNat == c) && (v.outP.all fun p => t.pc.toNat == p)
  | _ => false

/-- Section 2.1 of the vectors, the first row of each instruction. -/
theorem test_vectors_integer : ([
    ⟨.rv32, 64, .word 0xFFF00093#32, [], [], [], 0, 0x1000, [(1, 0xFFFFFFFF)], [], [], none, none⟩,
    ⟨.rv32, 64, .word 0x0000A113#32, [(1, 0xFFFFFFFF)], [], [], 0, 0x1000, [(2, 0x00000001)], [], [], none, none⟩,
    ⟨.rv32, 64, .word 0xFFF0B113#32, [(1, 0xFFFFFFFE)], [], [], 0, 0x1000, [(2, 0x00000001)], [], [], none, none⟩,
    ⟨.rv32, 64, .word 0xFFF0C113#32, [(1, 0x12345678)], [], [], 0, 0x1000, [(2, 0xEDCBA987)], [], [], none, none⟩,
    ⟨.rv32, 64, .word 0x7FF0F113#32, [(1, 0xFFFFFFFF)], [], [], 0, 0x1000, [(2, 0x000007FF)], [], [], none, none⟩,
    ⟨.rv32, 64, .word 0x8000E113#32, [(1, 0x00000001)], [], [], 0, 0x1000, [(2, 0xFFFFF801)], [], [], none, none⟩,
    ⟨.rv32, 64, .word 0x01F09113#32, [(1, 0x80000001)], [], [], 0, 0x1000, [(2, 0x80000000)], [], [], none, none⟩,
    ⟨.rv32, 64, .word 0x01F0D113#32, [(1, 0x80000001)], [], [], 0, 0x1000, [(2, 0x00000001)], [], [], none, none⟩,
    ⟨.rv32, 64, .word 0x41F0D113#32, [(1, 0x80000001)], [], [], 0, 0x1000, [(2, 0xFFFFFFFF)], [], [], none, none⟩,
    ⟨.rv32, 64, .word 0xFFFFF2B7#32, [], [], [], 0, 0x1000, [(5, 0xFFFFF000)], [], [], none, none⟩,
    ⟨.rv32, 64, .word 0xFFFFF297#32, [], [], [], 0, 0x1000, [(5, 0x00000000)], [], [], none, none⟩,
    ⟨.rv32, 64, .word 0x002081B3#32, [(1, 0xFFFFFFFF), (2, 0x00000002)], [], [], 0, 0x1000, [(3, 0x00000001)], [], [], none, none⟩,
    ⟨.rv32, 64, .word 0x402081B3#32, [(1, 0x00000000), (2, 0x00000001)], [], [], 0, 0x1000, [(3, 0xFFFFFFFF)], [], [], none, none⟩,
    ⟨.rv32, 64, .word 0x0020A1B3#32, [(1, 0xFFFFFFFF), (2, 0x00000001)], [], [], 0, 0x1000, [(3, 0x00000001)], [], [], none, none⟩,
    ⟨.rv32, 64, .word 0x0020B1B3#32, [(1, 0xFFFFFFFF), (2, 0x00000001)], [], [], 0, 0x1000, [(3, 0x00000000)], [], [], none, none⟩,
    ⟨.rv32, 64, .word 0x002091B3#32, [(1, 0x00000001), (2, 0x00000021)], [], [], 0, 0x1000, [(3, 0x00000002)], [], [], none, none⟩,
    ⟨.rv32, 64, .word 0x0020D1B3#32, [(1, 0x80000000), (2, 0xFFFFFFE4)], [], [], 0, 0x1000, [(3, 0x08000000)], [], [], none, none⟩,
    ⟨.rv32, 64, .word 0x4020D1B3#32, [(1, 0x80000000), (2, 0xFFFFFFE4)], [], [], 0, 0x1000, [(3, 0xF8000000)], [], [], none, none⟩,
    ⟨.rv32, 64, .word 0x0020C1B3#32, [(1, 0xFF00FF00), (2, 0x0FF00FF0)], [], [], 0, 0x1000, [(3, 0xF0F0F0F0)], [], [], none, none⟩,
    ⟨.rv32, 64, .word 0x0020E1B3#32, [(1, 0xFF00FF00), (2, 0x0FF00FF0)], [], [], 0, 0x1000, [(3, 0xFFF0FFF0)], [], [], none, none⟩,
    ⟨.rv32, 64, .word 0x0020F1B3#32, [(1, 0xFF00FF00), (2, 0x0FF00FF0)], [], [], 0, 0x1000, [(3, 0x0F000F00)], [], [], none, none⟩] : List Vec).all Vec.holds = true := by decide

/-- Section 2.2 of the vectors, the first row of each instruction. -/
theorem test_vectors_control : ([
    ⟨.rv32, 64, .word 0xFFDFF0EF#32, [], [], [], 0, 0x1000, [(1, 0x00001004)], [], [], none, (some 0x00000FFC)⟩,
    ⟨.rv32, 64, .word 0x000080E7#32, [(1, 0x00002001)], [], [], 0, 0x1000, [(1, 0x00001004)], [], [], none, (some 0x00002000)⟩,
    ⟨.rv32, 64, .word 0x00208863#32, [(1, 0x00000005), (2, 0x00000005)], [], [], 0, 0x1000, [], [], [], none, (some 0x00001010)⟩,
    ⟨.rv32, 64, .word 0xFE209CE3#32, [(1, 0x00000005), (2, 0x00000006)], [], [], 0, 0x1000, [], [], [], none, (some 0x00000FF8)⟩,
    ⟨.rv32, 64, .word 0x0020C463#32, [(1, 0xFFFFFFFF), (2, 0x00000001)], [], [], 0, 0x1000, [], [], [], none, (some 0x00001008)⟩,
    ⟨.rv32, 64, .word 0x0020E463#32, [(1, 0xFFFFFFFF), (2, 0x00000001)], [], [], 0, 0x1000, [], [], [], none, (some 0x00001004)⟩,
    ⟨.rv32, 64, .word 0x0020D463#32, [(1, 0x80000000), (2, 0x7FFFFFFF)], [], [], 0, 0x1000, [], [], [], none, (some 0x00001004)⟩,
    ⟨.rv32, 64, .word 0x0020F463#32, [(1, 0x80000000), (2, 0x7FFFFFFF)], [], [], 0, 0x1000, [], [], [], none, (some 0x00001008)⟩] : List Vec).all Vec.holds = true := by decide

/-- Section 2.3 of the vectors, the first row of each instruction. -/
theorem test_vectors_memory : ([
    ⟨.rv32, 64, .word 0x00008103#32, [(1, 0x00002000)], [], [(8192, 128), (8193, 129), (8194, 130), (8195, 131), (8196, 4), (8197, 5), (8198, 6), (8199, 247)], 0, 0x1000, [(2, 0xFFFFFF80)], [], [], none, none⟩,
    ⟨.rv32, 64, .word 0x0000C103#32, [(1, 0x00002000)], [], [(8192, 128), (8193, 129), (8194, 130), (8195, 131), (8196, 4), (8197, 5), (8198, 6), (8199, 247)], 0, 0x1000, [(2, 0x00000080)], [], [], none, none⟩,
    ⟨.rv32, 64, .word 0x00209103#32, [(1, 0x00002000)], [], [(8192, 128), (8193, 129), (8194, 130), (8195, 131), (8196, 4), (8197, 5), (8198, 6), (8199, 247)], 0, 0x1000, [(2, 0xFFFF8382)], [], [], none, none⟩,
    ⟨.rv32, 64, .word 0x0020D103#32, [(1, 0x00002000)], [], [(8192, 128), (8193, 129), (8194, 130), (8195, 131), (8196, 4), (8197, 5), (8198, 6), (8199, 247)], 0, 0x1000, [(2, 0x00008382)], [], [], none, none⟩,
    ⟨.rv32, 64, .word 0xFFC0A103#32, [(1, 0x00002008)], [], [(8192, 128), (8193, 129), (8194, 130), (8195, 131), (8196, 4), (8197, 5), (8198, 6), (8199, 247)], 0, 0x1000, [(2, 0xF7060504)], [], [], none, none⟩,
    ⟨.rv32, 64, .word 0x002081A3#32, [(1, 0x00002000), (2, 0x12345678)], [], [(8192, 128), (8193, 129), (8194, 130), (8195, 131), (8196, 4), (8197, 5), (8198, 6), (8199, 247)], 0, 0x1000, [], [], [(8192, 128), (8193, 129), (8194, 130), (8195, 120), (8196, 4), (8197, 5), (8198, 6), (8199, 247)], none, none⟩,
    ⟨.rv32, 64, .word 0x00209323#32, [(1, 0x00002000), (2, 0x12345678)], [], [(8192, 128), (8193, 129), (8194, 130), (8195, 131), (8196, 4), (8197, 5), (8198, 6), (8199, 247)], 0, 0x1000, [], [], [(8192, 128), (8193, 129), (8194, 130), (8195, 131), (8196, 4), (8197, 5), (8198, 120), (8199, 86)], none, none⟩,
    ⟨.rv32, 64, .word 0x0020A223#32, [(1, 0x00002000), (2, 0x12345678)], [], [(8192, 128), (8193, 129), (8194, 130), (8195, 131), (8196, 4), (8197, 5), (8198, 6), (8199, 247)], 0, 0x1000, [], [], [(8192, 128), (8193, 129), (8194, 130), (8195, 131), (8196, 120), (8197, 86), (8198, 52), (8199, 18)], none, none⟩] : List Vec).all Vec.holds = true := by decide

/-- Section 2.4 of the vectors, the first row of each instruction. -/
theorem test_vectors_fences : ([
    ⟨.rv32, 64, .word 0x0330000F#32, [], [], [], 0, 0x1000, [], [], [], none, (some 0x00001004)⟩,
    ⟨.rv32, 64, .word 0x8330000F#32, [], [], [], 0, 0x1000, [], [], [], none, (some 0x00001004)⟩,
    ⟨.rv32, 64, .word 0x0000100F#32, [], [], [], 0, 0x1000, [], [], [], none, (some 0x00001004)⟩] : List Vec).all Vec.holds = true := by decide

/-- Section 2.5 of the vectors, the first row of each instruction. -/
theorem test_vectors_rv64i : ([
    ⟨.rv64, 64, .word 0x0010811B#32, [(1, 0x000000007FFFFFFF)], [], [], 0, 0x1000, [(2, 0xFFFFFFFF80000000)], [], [], none, none⟩,
    ⟨.rv64, 64, .word 0x01F0911B#32, [(1, 0xFFFFFFFF00000001)], [], [], 0, 0x1000, [(2, 0xFFFFFFFF80000000)], [], [], none, none⟩,
    ⟨.rv64, 64, .word 0x01F0D11B#32, [(1, 0xFFFFFFFF80000000)], [], [], 0, 0x1000, [(2, 0x0000000000000001)], [], [], none, none⟩,
    ⟨.rv64, 64, .word 0x4040D11B#32, [(1, 0x0000000080000000)], [], [], 0, 0x1000, [(2, 0xFFFFFFFFF8000000)], [], [], none, none⟩,
    ⟨.rv64, 64, .word 0x002081BB#32, [(1, 0x000000007FFFFFFF), (2, 0x0000000000000001)], [], [], 0, 0x1000, [(3, 0xFFFFFFFF80000000)], [], [], none, none⟩,
    ⟨.rv64, 64, .word 0x402081BB#32, [(1, 0x0000000100000000), (2, 0x0000000000000001)], [], [], 0, 0x1000, [(3, 0xFFFFFFFFFFFFFFFF)], [], [], none, none⟩,
    ⟨.rv64, 64, .word 0x002091BB#32, [(1, 0x0000000000000001), (2, 0x000000000000003F)], [], [], 0, 0x1000, [(3, 0xFFFFFFFF80000000)], [], [], none, none⟩,
    ⟨.rv64, 64, .word 0x0020D1BB#32, [(1, 0xFFFFFFFFFFFFFFFF), (2, 0x000000000000001C)], [], [], 0, 0x1000, [(3, 0x000000000000000F)], [], [], none, none⟩,
    ⟨.rv64, 64, .word 0x4020D1BB#32, [(1, 0x0000000080000000), (2, 0x000000000000001C)], [], [], 0, 0x1000, [(3, 0xFFFFFFFFFFFFFFF8)], [], [], none, none⟩,
    ⟨.rv64, 64, .word 0x0000E103#32, [(1, 0x0000000000002000)], [], [(8192, 128), (8193, 129), (8194, 130), (8195, 131), (8196, 4), (8197, 5), (8198, 6), (8199, 247)], 0, 0x1000, [(2, 0x0000000083828180)], [], [], none, none⟩,
    ⟨.rv64, 64, .word 0x0000B103#32, [(1, 0x0000000000002000)], [], [(8192, 128), (8193, 129), (8194, 130), (8195, 131), (8196, 4), (8197, 5), (8198, 6), (8199, 247)], 0, 0x1000, [(2, 0xF706050483828180)], [], [], none, none⟩,
    ⟨.rv64, 64, .word 0x0020B023#32, [(1, 0x0000000000002000), (2, 0x0102030405060708)], [], [(8192, 128), (8193, 129), (8194, 130), (8195, 131), (8196, 4), (8197, 5), (8198, 6), (8199, 247)], 0, 0x1000, [], [], [(8192, 8), (8193, 7), (8194, 6), (8195, 5), (8196, 4), (8197, 3), (8198, 2), (8199, 1)], none, none⟩] : List Vec).all Vec.holds = true := by decide

/-- Section 2.6 of the vectors, the first row of each instruction. -/
theorem test_vectors_muldiv : ([
    ⟨.rv32, 64, .word 0x022081B3#32, [(1, 0xFFFFFFFF), (2, 0xFFFFFFFF)], [], [], 0, 0x1000, [(3, 0x00000001)], [], [], none, none⟩,
    ⟨.rv32, 64, .word 0x022091B3#32, [(1, 0xFFFFFFFF), (2, 0xFFFFFFFF)], [], [], 0, 0x1000, [(3, 0x00000000)], [], [], none, none⟩,
    ⟨.rv32, 64, .word 0x0220B1B3#32, [(1, 0xFFFFFFFF), (2, 0xFFFFFFFF)], [], [], 0, 0x1000, [(3, 0xFFFFFFFE)], [], [], none, none⟩,
    ⟨.rv32, 64, .word 0x0220A1B3#32, [(1, 0xFFFFFFFF), (2, 0xFFFFFFFF)], [], [], 0, 0x1000, [(3, 0xFFFFFFFF)], [], [], none, none⟩,
    ⟨.rv32, 64, .word 0x0220C1B3#32, [(1, 0xFFFFFFF9), (2, 0x00000002)], [], [], 0, 0x1000, [(3, 0xFFFFFFFD)], [], [], none, none⟩,
    ⟨.rv32, 64, .word 0x0220E1B3#32, [(1, 0xFFFFFFF9), (2, 0x00000002)], [], [], 0, 0x1000, [(3, 0xFFFFFFFF)], [], [], none, none⟩,
    ⟨.rv32, 64, .word 0x0220D1B3#32, [(1, 0xFFFFFFF9), (2, 0x00000002)], [], [], 0, 0x1000, [(3, 0x7FFFFFFC)], [], [], none, none⟩,
    ⟨.rv32, 64, .word 0x0220F1B3#32, [(1, 0xFFFFFFF9), (2, 0x00000002)], [], [], 0, 0x1000, [(3, 0x00000001)], [], [], none, none⟩,
    ⟨.rv64, 64, .word 0x022081BB#32, [(1, 0x0000000000010000), (2, 0x0000000000008000)], [], [], 0, 0x1000, [(3, 0xFFFFFFFF80000000)], [], [], none, none⟩,
    ⟨.rv64, 64, .word 0x0220C1BB#32, [(1, 0x0000000080000000), (2, 0x00000000FFFFFFFF)], [], [], 0, 0x1000, [(3, 0xFFFFFFFF80000000)], [], [], none, none⟩,
    ⟨.rv64, 64, .word 0x0200D1BB#32, [(1, 0x0000000000000005)], [], [], 0, 0x1000, [(3, 0xFFFFFFFFFFFFFFFF)], [], [], none, none⟩,
    ⟨.rv64, 64, .word 0x0200F1BB#32, [(1, 0x1234567880000001)], [], [], 0, 0x1000, [(3, 0xFFFFFFFF80000001)], [], [], none, none⟩,
    ⟨.rv64, 64, .word 0x0220E1BB#32, [(1, 0x0000000080000000), (2, 0x00000000FFFFFFFF)], [], [], 0, 0x1000, [(3, 0x0000000000000000)], [], [], none, none⟩] : List Vec).all Vec.holds = true := by decide

/-- Section 2.7 of the vectors, the first row of each instruction. -/
theorem test_vectors_atomics : ([
    ⟨.rv32, 64, .word 0x006522AF#32, [(10, 0x00002000), (6, 0x80000000)], [], [(8192, 5), (8193, 0), (8194, 0), (8195, 128), (8196, 255), (8197, 255), (8198, 255), (8199, 127)], 0, 0x1000, [(5, 0x80000005)], [], [(8192, 5), (8193, 0), (8194, 0), (8195, 0)], none, none⟩,
    ⟨.rv32, 64, .word 0x0C6522AF#32, [(10, 0x00002000), (6, 0x00000001)], [], [(8192, 5), (8193, 0), (8194, 0), (8195, 128), (8196, 255), (8197, 255), (8198, 255), (8199, 127)], 0, 0x1000, [(5, 0x80000005)], [], [(8192, 1), (8193, 0), (8194, 0), (8195, 0)], none, none⟩,
    ⟨.rv32, 64, .word 0x0A05202F#32, [(10, 0x00002000)], [], [(8192, 5), (8193, 0), (8194, 0), (8195, 128), (8196, 255), (8197, 255), (8198, 255), (8199, 127)], 0, 0x1000, [], [], [(8192, 0), (8193, 0), (8194, 0), (8195, 0)], none, none⟩,
    ⟨.rv32, 64, .word 0x206522AF#32, [(10, 0x00002000), (6, 0xFFFFFFFF)], [], [(8192, 5), (8193, 0), (8194, 0), (8195, 128), (8196, 255), (8197, 255), (8198, 255), (8199, 127)], 0, 0x1000, [(5, 0x80000005)], [], [(8192, 250), (8193, 255), (8194, 255), (8195, 127)], none, none⟩,
    ⟨.rv32, 64, .word 0x606522AF#32, [(10, 0x00002000), (6, 0x000000F0)], [], [(8192, 5), (8193, 0), (8194, 0), (8195, 128), (8196, 255), (8197, 255), (8198, 255), (8199, 127)], 0, 0x1000, [(5, 0x80000005)], [], [(8192, 0), (8193, 0), (8194, 0), (8195, 0)], none, none⟩,
    ⟨.rv32, 64, .word 0x406522AF#32, [(10, 0x00002000), (6, 0x000000F0)], [], [(8192, 5), (8193, 0), (8194, 0), (8195, 128), (8196, 255), (8197, 255), (8198, 255), (8199, 127)], 0, 0x1000, [(5, 0x80000005)], [], [(8192, 245), (8193, 0), (8194, 0), (8195, 128)], none, none⟩,
    ⟨.rv32, 64, .word 0x806522AF#32, [(10, 0x00002000), (6, 0x00000001)], [], [(8192, 5), (8193, 0), (8194, 0), (8195, 128), (8196, 255), (8197, 255), (8198, 255), (8199, 127)], 0, 0x1000, [(5, 0x80000005)], [], [(8192, 5), (8193, 0), (8194, 0), (8195, 128)], none, none⟩,
    ⟨.rv32, 64, .word 0xC06522AF#32, [(10, 0x00002000), (6, 0x00000001)], [], [(8192, 5), (8193, 0), (8194, 0), (8195, 128), (8196, 255), (8197, 255), (8198, 255), (8199, 127)], 0, 0x1000, [(5, 0x80000005)], [], [(8192, 1), (8193, 0), (8194, 0), (8195, 0)], none, none⟩,
    ⟨.rv32, 64, .word 0xA06522AF#32, [(10, 0x00002000), (6, 0x00000001)], [], [(8192, 5), (8193, 0), (8194, 0), (8195, 128), (8196, 255), (8197, 255), (8198, 255), (8199, 127)], 0, 0x1000, [(5, 0x80000005)], [], [(8192, 1), (8193, 0), (8194, 0), (8195, 0)], none, none⟩,
    ⟨.rv32, 64, .word 0xE06522AF#32, [(10, 0x00002000), (6, 0x00000001)], [], [(8192, 5), (8193, 0), (8194, 0), (8195, 128), (8196, 255), (8197, 255), (8198, 255), (8199, 127)], 0, 0x1000, [(5, 0x80000005)], [], [(8192, 5), (8193, 0), (8194, 0), (8195, 128)], none, none⟩,
    ⟨.rv64, 64, .word 0x006532AF#32, [(10, 0x0000000000002000), (6, 0x0000000000000001)], [], [(8192, 5), (8193, 0), (8194, 0), (8195, 128), (8196, 255), (8197, 255), (8198, 255), (8199, 127)], 0, 0x1000, [(5, 0x7FFFFFFF80000005)], [], [(8192, 6), (8193, 0), (8194, 0), (8195, 128), (8196, 255), (8197, 255), (8198, 255), (8199, 127)], none, none⟩,
    ⟨.rv64, 64, .word 0xA06532AF#32, [(10, 0x0000000000002000), (6, 0xFFFFFFFFFFFFFFFF)], [], [(8192, 5), (8193, 0), (8194, 0), (8195, 128), (8196, 255), (8197, 255), (8198, 255), (8199, 127)], 0, 0x1000, [(5, 0x7FFFFFFF80000005)], [], [(8192, 5), (8193, 0), (8194, 0), (8195, 128), (8196, 255), (8197, 255), (8198, 255), (8199, 127)], none, none⟩,
    ⟨.rv64, 64, .word 0xE66532AF#32, [(10, 0x0000000000002000), (6, 0xFFFFFFFFFFFFFFFF)], [], [(8192, 5), (8193, 0), (8194, 0), (8195, 128), (8196, 255), (8197, 255), (8198, 255), (8199, 127)], 0, 0x1000, [(5, 0x7FFFFFFF80000005)], [], [(8192, 255), (8193, 255), (8194, 255), (8195, 255), (8196, 255), (8197, 255), (8198, 255), (8199, 255)], none, none⟩,
    ⟨.rv64, 64, .word 0x100522AF#32, [(10, 0x0000000000002000)], [], [(8192, 5), (8193, 0), (8194, 0), (8195, 128), (8196, 255), (8197, 255), (8198, 255), (8199, 127)], 0, 0x1000, [(5, 0xFFFFFFFF80000005)], [], [], none, none⟩] : List Vec).all Vec.holds = true := by decide +kernel

/-- Section 2.8 of the vectors, the first row of each instruction. -/
theorem test_vectors_csr : ([
    ⟨.rv32, 64, .word 0x003312F3#32, [(6, 0xFFFFFFFF)], [], [], 0x21, 0x1000, [(5, 0x00000021)], [], [], (some 0xFF), none⟩,
    ⟨.rv32, 64, .word 0x001022F3#32, [], [], [], 0x35, 0x1000, [(5, 0x00000015)], [], [], (some 0x35), none⟩,
    ⟨.rv32, 64, .word 0x003332F3#32, [(6, 0x0000001F)], [], [], 0x7F, 0x1000, [(5, 0x0000007F)], [], [], (some 0x60), none⟩,
    ⟨.rv32, 64, .word 0x0022D2F3#32, [], [], [], 0x01, 0x1000, [(5, 0x00000000)], [], [], (some 0xA1), none⟩,
    ⟨.rv32, 64, .word 0x00186073#32, [], [], [], 0x00, 0x1000, [], [], [], (some 0x10), none⟩,
    ⟨.rv32, 64, .word 0x001072F3#32, [], [], [], 0x1F, 0x1000, [(5, 0x0000001F)], [], [], (some 0x1F), none⟩] : List Vec).all Vec.holds = true := by decide

/-- Section 2.9 of the vectors, the first row of each instruction. -/
theorem test_vectors_single_arithmetic : ([
    ⟨.rv32, 32, .word 0x002081D3#32, [], [(1, 0x3F800000), (2, 0x40000000)], [], 0x00, 0x1000, [], [(3, 0x40400000)], [], (some 0x00), none⟩,
    ⟨.rv32, 32, .word 0x081081D3#32, [], [(1, 0x3F800000)], [], 0x00, 0x1000, [], [(3, 0x00000000)], [], (some 0x00), none⟩,
    ⟨.rv32, 32, .word 0x102081D3#32, [], [(1, 0x00800000), (2, 0x3F000000)], [], 0x00, 0x1000, [], [(3, 0x00400000)], [], (some 0x00), none⟩,
    ⟨.rv32, 32, .word 0x182081D3#32, [], [(1, 0x3F800000), (2, 0x80000000)], [], 0x00, 0x1000, [], [(3, 0xFF800000)], [], (some 0x08), none⟩,
    ⟨.rv32, 32, .word 0x580081D3#32, [], [(1, 0x40800000)], [], 0x00, 0x1000, [], [(3, 0x40000000)], [], (some 0x00), none⟩,
    ⟨.rv32, 32, .word 0x282081D3#32, [], [(1, 0x00000000), (2, 0x80000000)], [], 0x00, 0x1000, [], [(3, 0x80000000)], [], (some 0x00), none⟩,
    ⟨.rv32, 32, .word 0x282091D3#32, [], [(1, 0x00000000), (2, 0x80000000)], [], 0x00, 0x1000, [], [(3, 0x00000000)], [], (some 0x00), none⟩,
    ⟨.rv32, 32, .word 0x18208243#32, [], [(1, 0x40000000), (2, 0x40400000), (3, 0x3F800000)], [], 0x00, 0x1000, [], [(4, 0x40E00000)], [], (some 0x00), none⟩,
    ⟨.rv32, 32, .word 0x18208247#32, [], [(1, 0x40000000), (2, 0x40400000), (3, 0x3F800000)], [], 0x00, 0x1000, [], [(4, 0x40A00000)], [], (some 0x00), none⟩,
    ⟨.rv32, 32, .word 0x1820824B#32, [], [(1, 0x40000000), (2, 0x40400000), (3, 0x3F800000)], [], 0x00, 0x1000, [], [(4, 0xC0A00000)], [], (some 0x00), none⟩,
    ⟨.rv32, 32, .word 0x1820824F#32, [], [(1, 0x40000000), (2, 0x40400000), (3, 0x3F800000)], [], 0x00, 0x1000, [], [(4, 0xC0E00000)], [], (some 0x00), none⟩] : List Vec).all Vec.holds = true := by decide

/-- Section 2.10 of the vectors, the first row of each instruction. -/
theorem test_vectors_single_other : ([
    ⟨.rv32, 32, .word 0xC00092D3#32, [], [(1, 0xC0200000)], [], 0x00, 0x1000, [(5, 0xFFFFFFFE)], [], [], (some 0x01), none⟩,
    ⟨.rv32, 32, .word 0xC01092D3#32, [], [(1, 0xBF800000)], [], 0x00, 0x1000, [(5, 0x00000000)], [], [], (some 0x10), none⟩,
    ⟨.rv64, 32, .word 0xC02092D3#32, [], [(1, 0x5F000000)], [], 0x00, 0x1000, [(5, 0x7FFFFFFFFFFFFFFF)], [], [], (some 0x10), none⟩,
    ⟨.rv64, 32, .word 0xC03092D3#32, [], [(1, 0x5F000000)], [], 0x00, 0x1000, [(5, 0x8000000000000000)], [], [], (some 0x00), none⟩,
    ⟨.rv32, 32, .word 0xD00280D3#32, [(5, 0x7FFFFFFF)], [], [], 0x00, 0x1000, [], [(1, 0x4F000000)], [], (some 0x01), none⟩,
    ⟨.rv32, 32, .word 0xD01280D3#32, [(5, 0xFFFFFFFF)], [], [], 0x00, 0x1000, [], [(1, 0x4F800000)], [], (some 0x01), none⟩,
    ⟨.rv64, 32, .word 0xD02280D3#32, [(5, 0x0000000100000001)], [], [], 0x00, 0x1000, [], [(1, 0x4F800000)], [], (some 0x01), none⟩,
    ⟨.rv32, 32, .word 0x202081D3#32, [], [(1, 0x3F800000), (2, 0xFFC00000)], [], 0x00, 0x1000, [], [(3, 0xBF800000)], [], (some 0x00), none⟩,
    ⟨.rv32, 32, .word 0x201091D3#32, [], [(1, 0x7F800001)], [], 0x00, 0x1000, [], [(3, 0xFF800001)], [], (some 0x00), none⟩,
    ⟨.rv32, 32, .word 0x2010A1D3#32, [], [(1, 0xC0400000)], [], 0x00, 0x1000, [], [(3, 0x40400000)], [], (some 0x00), none⟩,
    ⟨.rv32, 32, .word 0xE00082D3#32, [], [(1, 0x7F800001)], [], 0x00, 0x1000, [(5, 0x7F800001)], [], [], (some 0x00), none⟩,
    ⟨.rv64, 32, .word 0xF00280D3#32, [(5, 0x12345678BF800000)], [], [], 0, 0x1000, [], [(1, 0xBF800000)], [], none, none⟩,
    ⟨.rv32, 32, .word 0xA020A2D3#32, [], [(1, 0x00000000), (2, 0x80000000)], [], 0x00, 0x1000, [(5, 0x00000001)], [], [], (some 0x00), none⟩,
    ⟨.rv32, 32, .word 0xA02092D3#32, [], [(1, 0x7FC00000), (2, 0x3F800000)], [], 0x00, 0x1000, [(5, 0x00000000)], [], [], (some 0x10), none⟩,
    ⟨.rv32, 32, .word 0xA02082D3#32, [], [(1, 0xFF800000), (2, 0x7F800000)], [], 0x00, 0x1000, [(5, 0x00000001)], [], [], (some 0x00), none⟩,
    ⟨.rv32, 32, .word 0xE00092D3#32, [], [(1, 0xFF800000)], [], 0, 0x1000, [(5, 0x00000001)], [], [], none, none⟩,
    ⟨.rv32, 32, .word 0x00452087#32, [(10, 0x00002000)], [], [(8192, 128), (8193, 129), (8194, 130), (8195, 131), (8196, 4), (8197, 5), (8198, 6), (8199, 247)], 0, 0x1000, [], [(1, 0xF7060504)], [], none, none⟩,
    ⟨.rv32, 32, .word 0x00152027#32, [(10, 0x00002000)], [(1, 0x7F800001)], [(8192, 128), (8193, 129), (8194, 130), (8195, 131), (8196, 4), (8197, 5), (8198, 6), (8199, 247)], 0, 0x1000, [], [], [(8192, 1), (8193, 0), (8194, 128), (8195, 127)], none, none⟩] : List Vec).all Vec.holds = true := by decide +kernel

/-- Section 2.11 of the vectors, the first row of each instruction. -/
theorem test_vectors_double : ([
    ⟨.rv32, 64, .word 0x022081D3#32, [], [(1, 0x3FF0000000000000), (2, 0x4000000000000000)], [], 0x00, 0x1000, [], [(3, 0x4008000000000000)], [], (some 0x00), none⟩,
    ⟨.rv32, 64, .word 0x122081D3#32, [], [(1, 0x7FEFFFFFFFFFFFFF), (2, 0x4000000000000000)], [], 0x00, 0x1000, [], [(3, 0x7FF0000000000000)], [], (some 0x05), none⟩,
    ⟨.rv32, 64, .word 0x1A2081D3#32, [], [(1, 0x3FF0000000000000), (2, 0x4008000000000000)], [], 0x00, 0x1000, [], [(3, 0x3FD5555555555555)], [], (some 0x01), none⟩,
    ⟨.rv32, 64, .word 0x5A0081D3#32, [], [(1, 0x4000000000000000)], [], 0x00, 0x1000, [], [(3, 0x3FF6A09E667F3BCD)], [], (some 0x01), none⟩,
    ⟨.rv32, 64, .word 0x1A208243#32, [], [(1, 0x4000000000000000), (2, 0x4008000000000000), (3, 0x3FF0000000000000)], [], 0x00, 0x1000, [], [(4, 0x401C000000000000)], [], (some 0x00), none⟩,
    ⟨.rv32, 64, .word 0x2A2081D3#32, [], [(1, 0x7FF0000000000001), (2, 0x7FF8000000000000)], [], 0x00, 0x1000, [], [(3, 0x7FF8000000000000)], [], (some 0x10), none⟩,
    ⟨.rv32, 64, .word 0x221081D3#32, [], [(1, 0xFFFFFFFF3F800000)], [], 0, 0x1000, [], [(3, 0xFFFFFFFF3F800000)], [], none, none⟩,
    ⟨.rv32, 64, .word 0x00053087#32, [(10, 0x00002000)], [], [(8192, 128), (8193, 129), (8194, 130), (8195, 131), (8196, 4), (8197, 5), (8198, 6), (8199, 247)], 0, 0x1000, [], [(1, 0xF706050483828180)], [], none, none⟩,
    ⟨.rv32, 64, .word 0x00153027#32, [(10, 0x00002000)], [(1, 0x1122334455667788)], [(8192, 128), (8193, 129), (8194, 130), (8195, 131), (8196, 4), (8197, 5), (8198, 6), (8199, 247)], 0, 0x1000, [], [], [(8192, 136), (8193, 119), (8194, 102), (8195, 85), (8196, 68), (8197, 51), (8198, 34), (8199, 17)], none, none⟩,
    ⟨.rv32, 64, .word 0x401081D3#32, [], [(1, 0x3FB999999999999A)], [], 0x00, 0x1000, [], [(3, 0xFFFFFFFF3DCCCCCD)], [], (some 0x01), none⟩,
    ⟨.rv32, 64, .word 0x420081D3#32, [], [(1, 0xFFFFFFFF3DCCCCCD)], [], 0x00, 0x1000, [], [(3, 0x3FB99999A0000000)], [], (some 0x00), none⟩,
    ⟨.rv32, 64, .word 0xC20092D3#32, [], [(1, 0x41DFFFFFFFFFFFFF)], [], 0x00, 0x1000, [(5, 0x7FFFFFFF)], [], [], (some 0x01), none⟩,
    ⟨.rv32, 64, .word 0xD20280D3#32, [(5, 0x80000000)], [], [], 0x00, 0x1000, [], [(1, 0xC1E0000000000000)], [], (some 0x00), none⟩,
    ⟨.rv32, 64, .word 0xD21280D3#32, [(5, 0x80000000)], [], [], 0x00, 0x1000, [], [(1, 0x41E0000000000000)], [], (some 0x00), none⟩,
    ⟨.rv64, 64, .word 0xD22280D3#32, [(5, 0x7FFFFFFFFFFFFFFF)], [], [], 0x00, 0x1000, [], [(1, 0x43E0000000000000)], [], (some 0x01), none⟩,
    ⟨.rv64, 64, .word 0xC23092D3#32, [], [(1, 0x43F0000000000000)], [], 0x00, 0x1000, [(5, 0xFFFFFFFFFFFFFFFF)], [], [], (some 0x10), none⟩,
    ⟨.rv64, 64, .word 0xE20082D3#32, [], [(1, 0x7FF0000000000001)], [], 0, 0x1000, [(5, 0x7FF0000000000001)], [], [], none, none⟩,
    ⟨.rv64, 64, .word 0xF20280D3#32, [(5, 0xC000000000000000)], [], [], 0, 0x1000, [], [(1, 0xC000000000000000)], [], none, none⟩,
    ⟨.rv32, 64, .word 0xA220A2D3#32, [], [(1, 0x3FF0000000000000), (2, 0x3FF0000000000000)], [], 0x00, 0x1000, [(5, 0x00000001)], [], [], (some 0x00), none⟩,
    ⟨.rv32, 64, .word 0xA22082D3#32, [], [(1, 0x7FF8000000000000), (2, 0x3FF0000000000000)], [], 0x00, 0x1000, [(5, 0x00000000)], [], [], (some 0x10), none⟩,
    ⟨.rv32, 64, .word 0xE20092D3#32, [], [(1, 0x000FFFFFFFFFFFFF)], [], 0, 0x1000, [(5, 0x00000020)], [], [], none, none⟩] : List Vec).all Vec.holds = true := by decide +kernel

/-- Section 2.12 of the vectors, the first row of each instruction. -/
theorem test_vectors_quad : ([
    ⟨.rv32, 128, .word 0x062081D3#32, [], [(1, 0x3FFF0000000000000000000000000000), (2, 0x40000000000000000000000000000000)], [], 0x00, 0x1000, [], [(3, 0x40008000000000000000000000000000)], [], (some 0x00), none⟩,
    ⟨.rv32, 128, .word 0x1E2081D3#32, [], [(1, 0x3FFF0000000000000000000000000000), (2, 0x40008000000000000000000000000000)], [], 0x00, 0x1000, [], [(3, 0x3FFD5555555555555555555555555555)], [], (some 0x01), none⟩,
    ⟨.rv32, 128, .word 0x5E0081D3#32, [], [(1, 0x40000000000000000000000000000000)], [], 0x00, 0x1000, [], [(3, 0x3FFF6A09E667F3BCC908B2FB1366EA95)], [], (some 0x01), none⟩,
    ⟨.rv32, 128, .word 0x461081D3#32, [], [(1, 0xFFFFFFFFFFFFFFFF3FB999999999999A)], [], 0x00, 0x1000, [], [(3, 0x3FFB999999999999A000000000000000)], [], (some 0x00), none⟩,
    ⟨.rv32, 128, .word 0x423081D3#32, [], [(1, 0x3FFB999999999999999999999999999A)], [], 0x00, 0x1000, [], [(3, 0xFFFFFFFFFFFFFFFF3FB999999999999A)], [], (some 0x01), none⟩,
    ⟨.rv32, 128, .word 0x403081D3#32, [], [(1, 0x40008000000000000000000000000000)], [], 0x00, 0x1000, [], [(3, 0xFFFFFFFFFFFFFFFFFFFFFFFF40400000)], [], (some 0x00), none⟩,
    ⟨.rv32, 128, .word 0x460081D3#32, [], [(1, 0xFFFFFFFFFFFFFFFFFFFFFFFF40400000)], [], 0x00, 0x1000, [], [(3, 0x40008000000000000000000000000000)], [], (some 0x00), none⟩,
    ⟨.rv32, 128, .word 0xD60281D3#32, [(5, 0xFFFFFFFE)], [], [], 0x00, 0x1000, [], [(3, 0xC0000000000000000000000000000000)], [], (some 0x00), none⟩,
    ⟨.rv32, 128, .word 0xC60092D3#32, [], [(1, 0x4000C000000000000000000000000000)], [], 0x00, 0x1000, [(5, 0x00000003)], [], [], (some 0x01), none⟩,
    ⟨.rv32, 128, .word 0xE60092D3#32, [], [(1, 0x7FFF0000000000000000000000000001)], [], 0, 0x1000, [(5, 0x00000100)], [], [], none, none⟩,
    ⟨.rv32, 128, .word 0xA620A2D3#32, [], [(1, 0x3FFF0000000000000000000000000000), (2, 0x3FFF0000000000000000000000000000)], [], 0, 0x1000, [(5, 0x00000001)], [], [], none, none⟩,
    ⟨.rv32, 128, .word 0x00054087#32, [(10, 0x00002000)], [], [(8192, 16), (8193, 17), (8194, 18), (8195, 19), (8196, 20), (8197, 21), (8198, 22), (8199, 23), (8200, 24), (8201, 25), (8202, 26), (8203, 27), (8204, 28), (8205, 29), (8206, 30), (8207, 31)], 0, 0x1000, [], [(1, 0x1F1E1D1C1B1A19181716151413121110)], [], none, none⟩,
    ⟨.rv32, 128, .word 0x00154027#32, [(10, 0x00002000)], [(1, 0x3FFF00000000000000000000000000AB)], [(8192, 16), (8193, 17), (8194, 18), (8195, 19), (8196, 20), (8197, 21), (8198, 22), (8199, 23), (8200, 24), (8201, 25), (8202, 26), (8203, 27), (8204, 28), (8205, 29), (8206, 30), (8207, 31)], 0, 0x1000, [], [], [(8192, 171), (8193, 0), (8194, 0), (8195, 0), (8196, 0), (8197, 0), (8198, 0), (8199, 0), (8200, 0), (8201, 0), (8202, 0), (8203, 0), (8204, 0), (8205, 0), (8206, 255), (8207, 63)], none, none⟩] : List Vec).all Vec.holds = true := by decide +kernel

/-- Section 2.13 of the vectors, the first row of each instruction. -/
theorem test_vectors_compressed : ([
    ⟨.rv32, 64, .half 0x0800#16, [(2, 0x00003000)], [], [], 0, 0x1000, [(8, 0x00003010)], [], [], none, none⟩,
    ⟨.rv32, 64, .half 0x4144#16, [(10, 0x00002000)], [], [(8192, 128), (8193, 129), (8194, 130), (8195, 131), (8196, 4), (8197, 5), (8198, 6), (8199, 247)], 0, 0x1000, [(9, 0xF7060504)], [], [], none, none⟩,
    ⟨.rv32, 64, .half 0xC104#16, [(10, 0x00002000), (9, 0xDEADBEEF)], [], [(8192, 128), (8193, 129), (8194, 130), (8195, 131), (8196, 4), (8197, 5), (8198, 6), (8199, 247)], 0, 0x1000, [], [], [(8192, 239), (8193, 190), (8194, 173), (8195, 222)], none, none⟩,
    ⟨.rv64, 64, .half 0x6104#16, [(10, 0x0000000000002000)], [], [(8192, 128), (8193, 129), (8194, 130), (8195, 131), (8196, 4), (8197, 5), (8198, 6), (8199, 247)], 0, 0x1000, [(9, 0xF706050483828180)], [], [], none, none⟩,
    ⟨.rv64, 64, .half 0xE104#16, [(10, 0x0000000000002000), (9, 0x0102030405060708)], [], [(8192, 128), (8193, 129), (8194, 130), (8195, 131), (8196, 4), (8197, 5), (8198, 6), (8199, 247)], 0, 0x1000, [], [], [(8192, 8), (8193, 7), (8194, 6), (8195, 5), (8196, 4), (8197, 3), (8198, 2), (8199, 1)], none, none⟩,
    ⟨.rv32, 64, .half 0x6104#16, [(10, 0x00002000)], [], [(8192, 128), (8193, 129), (8194, 130), (8195, 131), (8196, 4), (8197, 5), (8198, 6), (8199, 247)], 0, 0x1000, [], [(9, 0xFFFFFFFF83828180)], [], none, none⟩,
    ⟨.rv32, 64, .half 0x2104#16, [(10, 0x00002000)], [], [(8192, 128), (8193, 129), (8194, 130), (8195, 131), (8196, 4), (8197, 5), (8198, 6), (8199, 247)], 0, 0x1000, [], [(9, 0xF706050483828180)], [], none, none⟩,
    ⟨.rv32, 64, .half 0xA104#16, [(10, 0x00002000)], [(9, 0x1122334455667788)], [(8192, 128), (8193, 129), (8194, 130), (8195, 131), (8196, 4), (8197, 5), (8198, 6), (8199, 247)], 0, 0x1000, [], [], [(8192, 136), (8193, 119), (8194, 102), (8195, 85), (8196, 68), (8197, 51), (8198, 34), (8199, 17)], none, none⟩,
    ⟨.rv32, 64, .half 0xE144#16, [(10, 0x00002000)], [(9, 0xFFFFFFFF3F800000)], [(8192, 128), (8193, 129), (8194, 130), (8195, 131), (8196, 4), (8197, 5), (8198, 6), (8199, 247)], 0, 0x1000, [], [], [(8192, 128), (8193, 129), (8194, 130), (8195, 131), (8196, 0), (8197, 0), (8198, 128), (8199, 63)], none, none⟩,
    ⟨.rv32, 64, .half 0x0001#16, [], [], [], 0, 0x1000, [], [], [], none, (some 0x00001002)⟩,
    ⟨.rv32, 64, .half 0x1501#16, [(10, 0x00000010)], [], [], 0, 0x1000, [(10, 0xFFFFFFF0)], [], [], none, none⟩,
    ⟨.rv32, 64, .half 0x2FFD#16, [], [], [], 0, 0x1000, [(1, 0x00001002)], [], [], none, (some 0x000017FE)⟩,
    ⟨.rv64, 64, .half 0x357D#16, [(10, 0x0000000080000000)], [], [], 0, 0x1000, [(10, 0x000000007FFFFFFF)], [], [], none, none⟩,
    ⟨.rv32, 64, .half 0x557D#16, [], [], [], 0, 0x1000, [(10, 0xFFFFFFFF)], [], [], none, none⟩,
    ⟨.rv32, 64, .half 0x617D#16, [(2, 0x00003000)], [], [], 0, 0x1000, [(2, 0x000031F0)], [], [], none, none⟩,
    ⟨.rv32, 64, .half 0x657D#16, [], [], [], 0, 0x1000, [(10, 0x0001F000)], [], [], none, none⟩,
    ⟨.rv32, 64, .half 0x8011#16, [(8, 0x80000000)], [], [], 0, 0x1000, [(8, 0x08000000)], [], [], none, none⟩,
    ⟨.rv32, 64, .half 0x8411#16, [(8, 0x80000000)], [], [], 0, 0x1000, [(8, 0xF8000000)], [], [], none, none⟩,
    ⟨.rv32, 64, .half 0x9841#16, [(8, 0x12345678)], [], [], 0, 0x1000, [(8, 0x12345670)], [], [], none, none⟩,
    ⟨.rv32, 64, .half 0x8C05#16, [(8, 0x00000005), (9, 0x00000007)], [], [], 0, 0x1000, [(8, 0xFFFFFFFE)], [], [], none, none⟩,
    ⟨.rv32, 64, .half 0x8C25#16, [(8, 0x00000005), (9, 0x00000007)], [], [], 0, 0x1000, [(8, 0x00000002)], [], [], none, none⟩,
    ⟨.rv32, 64, .half 0x8C45#16, [(8, 0x00000005), (9, 0x00000008)], [], [], 0, 0x1000, [(8, 0x0000000D)], [], [], none, none⟩,
    ⟨.rv32, 64, .half 0x8C65#16, [(8, 0x00000005), (9, 0x00000007)], [], [], 0, 0x1000, [(8, 0x00000005)], [], [], none, none⟩,
    ⟨.rv64, 64, .half 0x9C05#16, [(8, 0x0000000080000000), (9, 0x0000000000000001)], [], [], 0, 0x1000, [(8, 0x000000007FFFFFFF)], [], [], none, none⟩,
    ⟨.rv64, 64, .half 0x9C25#16, [(8, 0x000000007FFFFFFF), (9, 0x0000000000000001)], [], [], 0, 0x1000, [(8, 0xFFFFFFFF80000000)], [], [], none, none⟩,
    ⟨.rv32, 64, .half 0xB001#16, [], [], [], 0, 0x1000, [], [], [], none, (some 0x00000800)⟩,
    ⟨.rv32, 64, .half 0xCC7D#16, [(8, 0x00000000)], [], [], 0, 0x1000, [], [], [], none, (some 0x000010FE)⟩,
    ⟨.rv32, 64, .half 0xF001#16, [(8, 0x00000001)], [], [], 0, 0x1000, [], [], [], none, (some 0x00000F00)⟩,
    ⟨.rv32, 64, .half 0x057E#16, [(10, 0x00000003)], [], [], 0, 0x1000, [(10, 0x80000000)], [], [], none, none⟩,
    ⟨.rv32, 64, .half 0x4512#16, [(2, 0x00002000)], [], [(8192, 128), (8193, 129), (8194, 130), (8195, 131), (8196, 4), (8197, 5), (8198, 6), (8199, 247)], 0, 0x1000, [(10, 0xF7060504)], [], [], none, none⟩,
    ⟨.rv64, 64, .half 0x6502#16, [(2, 0x0000000000002000)], [], [(8192, 128), (8193, 129), (8194, 130), (8195, 131), (8196, 4), (8197, 5), (8198, 6), (8199, 247)], 0, 0x1000, [(10, 0xF706050483828180)], [], [], none, none⟩,
    ⟨.rv32, 64, .half 0x6502#16, [(2, 0x00002000)], [], [(8192, 128), (8193, 129), (8194, 130), (8195, 131), (8196, 4), (8197, 5), (8198, 6), (8199, 247)], 0, 0x1000, [], [(10, 0xFFFFFFFF83828180)], [], none, none⟩,
    ⟨.rv32, 64, .half 0x2502#16, [(2, 0x00002000)], [], [(8192, 128), (8193, 129), (8194, 130), (8195, 131), (8196, 4), (8197, 5), (8198, 6), (8199, 247)], 0, 0x1000, [], [(10, 0xF706050483828180)], [], none, none⟩,
    ⟨.rv32, 64, .half 0xC22A#16, [(2, 0x00002000), (10, 0xAABBCCDD)], [], [(8192, 128), (8193, 129), (8194, 130), (8195, 131), (8196, 4), (8197, 5), (8198, 6), (8199, 247)], 0, 0x1000, [], [], [(8192, 128), (8193, 129), (8194, 130), (8195, 131), (8196, 221), (8197, 204), (8198, 187), (8199, 170)], none, none⟩,
    ⟨.rv64, 64, .half 0xE02A#16, [(2, 0x0000000000002000), (10, 0x0102030405060708)], [], [(8192, 128), (8193, 129), (8194, 130), (8195, 131), (8196, 4), (8197, 5), (8198, 6), (8199, 247)], 0, 0x1000, [], [], [(8192, 8), (8193, 7), (8194, 6), (8195, 5), (8196, 4), (8197, 3), (8198, 2), (8199, 1)], none, none⟩,
    ⟨.rv32, 64, .half 0xE02A#16, [(2, 0x00002000)], [(10, 0xFFFFFFFF40490FDB)], [(8192, 128), (8193, 129), (8194, 130), (8195, 131), (8196, 4), (8197, 5), (8198, 6), (8199, 247)], 0, 0x1000, [], [], [(8192, 219), (8193, 15), (8194, 73), (8195, 64)], none, none⟩,
    ⟨.rv32, 64, .half 0xA02A#16, [(2, 0x00002000)], [(10, 0x400921FB54442D18)], [(8192, 128), (8193, 129), (8194, 130), (8195, 131), (8196, 4), (8197, 5), (8198, 6), (8199, 247)], 0, 0x1000, [], [], [(8192, 24), (8193, 45), (8194, 68), (8195, 84), (8196, 251), (8197, 33), (8198, 9), (8199, 64)], none, none⟩,
    ⟨.rv32, 64, .half 0x8082#16, [(1, 0x00002001)], [], [], 0, 0x1000, [(1, 0x00002001)], [], [], none, (some 0x00002000)⟩,
    ⟨.rv32, 64, .half 0x852E#16, [(11, 0x00000055)], [], [], 0, 0x1000, [(10, 0x00000055)], [], [], none, none⟩,
    ⟨.rv32, 64, .half 0x9282#16, [(5, 0x00002000)], [], [], 0, 0x1000, [(1, 0x00001002)], [], [], none, (some 0x00002000)⟩,
    ⟨.rv32, 64, .half 0x952E#16, [(10, 0x00000001), (11, 0xFFFFFFFF)], [], [], 0, 0x1000, [(10, 0x00000000)], [], [], none, none⟩] : List Vec).all Vec.holds = true := by decide +kernel

/-! ### The memory model, on litmus tests of spec/96_litmus_tests.md -/

/-- Every way of putting an element into a list. -/
def inserts {α : Type} (a : α) : List α → List (List α)
  | [] => [[a]]
  | b :: l => (a :: b :: l) :: (inserts a l).map (b :: ·)

/-- Every order of a list. -/
def orders {α : Type} : List α → List (List α)
  | [] => [[]]
  | a :: l => (orders l).flatMap (inserts a)

/-- Some global memory order of the operations is legal, memory starting as given. -/
def someLegal (c : Config) (initial : Memory) (streams : List (List Issued)) (ops : List MemOp) : Bool :=
  (orders ops).any fun g => (Execution.mk initial streams g).legal c

/-- An executed instruction with its address; an SC of these tests succeeds. -/
def issued (i : Instr) (a : Nat := 0) : Issued :=
  { instr := some i, addr := a, ok := true, env := [], sync := isFenceI i, time := 0 }

/-- A word written: hart, place in its program, address, value. -/
def wrote (h p a v : Nat) : MemOp := ⟨h, p, (List.range 4).map (a + ·), .main, false, true, [], valueBytes 4 v⟩

/-- A word read. -/
def saw (h p a v : Nat) : MemOp := ⟨h, p, (List.range 4).map (a + ·), .main, true, false, valueBytes 4 v, []⟩

/-- Message passing: two stores with a FENCE W,W, two loads the second of whose addresses depends on the first. -/
def messagePassing (guarded : Bool) : List (List Issued) :=
  [[issued (.sw 6 8 0) 0x2000, issued (if guarded then .fence 0 1 1 0 0 else .addi 0 0 0), issued (.sw 6 9 0) 0x2008],
   [issued (.lw 10 9 0) 0x2008, issued (.xor 7 10 10), issued (.add 8 8 7), issued (.lw 13 8 0) 0x2000]]

/-- The old data after the new flag is forbidden with the fence and the dependency, allowed without the fence. -/
theorem test_litmus_message_passing :
    someLegal resetConfig [] (messagePassing true) [wrote 0 0 0x2000 1, wrote 0 2 0x2008 1, saw 1 0 0x2008 1, saw 1 3 0x2000 0] = false ∧
    someLegal resetConfig [] (messagePassing true) [wrote 0 0 0x2000 1, wrote 0 2 0x2008 1, saw 1 0 0x2008 1, saw 1 3 0x2000 1] = true ∧
    someLegal resetConfig [] (messagePassing false) [wrote 0 0 0x2000 1, wrote 0 2 0x2008 1, saw 1 0 0x2008 1, saw 1 3 0x2000 0] = true := by
  decide +kernel

/-- Store buffering (two stores, each followed by a load of the other's address) with or without FENCE RW,RW. -/
def storeBuffering (f : Instr) : List (List Issued) :=
  [[issued (.sw 6 8 0) 0x2000, issued f, issued (.lw 10 9 0) 0x2008], [issued (.sw 6 9 0) 0x2008, issued f, issued (.lw 11 8 0) 0x2000]]

/-- Both loads may see 0, under RVTSO too, unless full fences stand between (R123 to R125). -/
theorem test_litmus_store_buffering :
    let ops := [wrote 0 0 0x2000 1, saw 0 2 0x2008 0, wrote 1 0 0x2008 1, saw 1 2 0x2000 0]
    let tso : Config := cfgWith .rv64 fun e => { e with ztso := true }
    someLegal resetConfig [] (storeBuffering (.fence 0 3 3 0 0)) ops = false ∧
    someLegal resetConfig [] (storeBuffering (.addi 0 0 0)) ops = true ∧ someLegal tso [] (storeBuffering (.addi 0 0 0)) ops = true ∧
    someLegal tso [] (storeBuffering (.fence 0 3 3 0 0)) ops = false := by decide +kernel

/-! ### Names and lengths (R190, R230, R571, R3) -/

/-- The words R571 prints for FRCSR t0, FSCSR t0, t1 and FSFLAGS t1; the lengths of Table R190-T; the ISA string. -/
theorem test_assembler :
    (Pseudo.frcsr 5).expand.map encode = [.word 0x003022F3#32] ∧
    (Pseudo.fscsr 5 6).expand.map encode = [.word 0x003312F3#32] ∧
    (Pseudo.fsflags 0 6).expand.map encode = [.word 0x00131073#32] ∧
    [0x0001#16, 0x0013#16, 0x001F#16, 0x003F#16, 0x107F#16, 0x707F#16].map encodedLength =
      [some 16, some 32, some 48, some 64, some 96, none] ∧
    hintUse (.addi 0 0 0) = none ∧ hintUse (.addi 0 0 1) = some .standard ∧ hintUse (.cSlli 5 0) = some .custom ∧
    isaString resetConfig = "RV64IMAFDQC_Zicsr_Zifencei" := by decide

/-! ### CSR accesses, devices and misaligned AMOs in the memory model -/

/-- A device's range. -/
def device (base : Nat) (strong : Bool) (channel : Nat) : Region :=
  { base := base, size := 0x1000, kind := .io, fetch := false, read := true, write := true, widths := [4, 8],
    amos := [], lrsc := false, eventual := false, emulable := false, strong := strong, channel := channel }

/-- RDTIME and then a load: FENCE I,R keeps the read of the CSR before the load, FENCE R,R does not (R117, R493). -/
theorem test_fence_orders_csr_reads :
    let rdtime : MemOp := ⟨0, 0, [], .csr, true, false, [], []⟩
    let run (f : Instr) : Execution :=
      ⟨[], [[issued (.csrrs 5 0xC01 0), issued f, issued (.lw 10 8 0) 0x2000]], [saw 0 2 0x2000 0, rdtime]⟩
    (run (.fence 0 8 2 0 0)).legal resetConfig = false ∧ (run (.fence 0 2 2 0 0)).legal resetConfig = true := by decide

/-- A load, a load from the address it gave, and a write of a CSR: no pipeline dependency orders the CSR write after the first
load, as one orders a store (R117, R149). -/
theorem test_pipeline_orders_no_csr :
    let csrw : MemOp := ⟨0, 2, [], .csr, false, true, [], []⟩
    let run (i : Instr) (o : MemOp) : Execution :=
      ⟨[], [[issued (.lw 10 8 0) 0x2000, issued (.lw 11 10 0) 0x2010, issued i 0x2020]], [o, saw 0 0 0x2000 0, saw 0 1 0x2010 0]⟩
    (run (.csrrw 0 1 6) csrw).legal resetConfig = true ∧ (run (.sw 6 9 0) (wrote 0 2 0x2020 1)).legal resetConfig = false := by
  decide

/-- Two words of a device written in turn are ordered where its range is strongly ordered or has a channel, and else not
(R109, R180). -/
theorem test_device_channels :
    let dev (strong : Bool) (channel : Nat) : Config := { resetConfig with regions := [device 0x8000 strong channel] }
    let put (p a : Nat) : MemOp := { wrote 0 p a 1 with cls := .device }
    let e : Execution := ⟨[], [[issued (.sw 6 8 0) 0x8000, issued (.sw 6 8 4) 0x8004]], [put 1 0x8004, put 0 0x8000]⟩
    e.legal (dev false 0) = true ∧ e.legal (dev true 0) = false ∧ e.legal (dev false 2) = false := by decide

/-- Between the load part and the store part of a misaligned AMO another hart may store a byte of it, but not the same word
(R162, R466). -/
theorem test_misaligned_amo_parts :
    let zam : Config := cfgWith .rv64 fun e => { e with zam := true }
    let run (i : Instr) (a : Nat) (o : MemOp) : Execution :=
      ⟨[], [[issued (.amoaddW 5 8 6 false false) 0x2002], [issued i a]], [saw 0 0 0x2002 0, o, wrote 0 0 0x2002 1]⟩
    (run (.sb 6 9 0) 0x2003 ⟨1, 0, [0x2003], .main, false, true, [], [7]⟩).legal zam = true ∧
    (run (.sw 6 9 0) 0x2002 (wrote 1 0 0x2002 7)).legal zam = false := by decide

/-- Hart 0 stores code and then a flag; hart 1 reads the flag and fetches the code after a FENCE.I: it fetches the new byte.
After no FENCE.I it may fetch the old one (R121, R872). -/
theorem test_remote_code :
    let run (f : Instr) : Execution :=
      ⟨[], [[issued (.sw 6 8 0) 0x2000, issued (.fence 0 1 1 0 0), issued (.sw 6 9 0) 0x2008], [issued (.lw 5 9 0) 0x2008, issued f]],
        [wrote 0 0 0x2000 1, wrote 0 2 0x2008 1, saw 1 0 0x2008 1]⟩
    (run (.fenceI 0 0 0)).legal resetConfig = true ∧ (run (.fenceI 0 0 0)).fetchSees resetConfig 1 2 0x2000 1 = true ∧
    (run (.fenceI 0 0 0)).fetchSees resetConfig 1 2 0x2000 0 = false ∧
    (run (.addi 0 0 0)).fetchSees resetConfig 1 2 0x2000 0 = true := by decide

/-- A load, FENCE.I and a store that stands before the load in the global memory order: FENCE.I orders no data, and the byte
is fetched as it was before the store. What is written to a device's byte is never fetched as memory (R104, R185). -/
theorem test_fence_i_orders_no_data :
    let e : Execution := ⟨[], [[issued (.lw 5 8 0) 0x2000, issued (.fenceI 0 0 0), issued (.sw 6 8 8) 0x2008]],
      [wrote 0 2 0x2008 1, saw 0 0 0x2000 0]⟩
    let dev : Config := { resetConfig with regions := [device 0x8000 false 0] }
    let d : Execution := ⟨[], [[issued (.sw 6 8 0) 0x8000, issued (.fenceI 0 0 0)]], [{ wrote 0 0 0x8000 1 with cls := .device }]⟩
    e.legal resetConfig = true ∧ e.fetchSees resetConfig 0 2 0x2008 0 = true ∧ e.fetchSees resetConfig 0 2 0x2008 1 = false ∧
    e.fetchSees resetConfig 0 3 0x2008 1 = true ∧ d.legal dev = true ∧ d.fetchSees dev 0 2 0x8000 0 = true ∧
    d.finalMemory dev = [] := by decide

/-- LB of x, LH of x, an AMO at x + 1 whose load and store are two operations, FENCE W,W and a store: with the additional rule
of R172 the LB precedes the store, through the LH and the AMO as one (R162); without it, it need not. -/
theorem test_additional_rule_takes_amo_as_one :
    let part (l : Bool) : MemOp :=
      ⟨0, 2, [0x2001, 0x2002, 0x2003, 0x2004], .main, l, !l, if l then [0, 0, 0, 0] else [], if l then [] else [0, 0, 0, 0]⟩
    let e : Execution := ⟨[], [[issued (.lb 5 8 0) 0x2000, issued (.lh 6 8 0) 0x2000, issued (.amoaddW 7 8 9 0 0) 0x2001,
        issued (.fence 0 1 1 0 0), issued (.sw 6 9 0) 0x3000]],
      [⟨0, 1, [0x2000, 0x2001], .main, true, false, [0, 0], []⟩, part true, part false, wrote 0 4 0x3000 1,
       ⟨0, 0, [0x2000], .main, true, false, [0], []⟩]⟩
    e.legal resetConfig = true ∧ e.legal { resetConfig with ppoRswExtra := true } = false := by decide

/-- An aligned LD of four bytes of main memory and four of a device is one operation, of both kinds, and no two (R103). -/
theorem test_aligned_access_is_one_operation :
    let c : Config := { resetConfig with regions := [device 0x2004 false 0] }
    let part (a : Nat) (k : OpClass) : MemOp := { saw 0 0 a 0 with cls := k }
    let run (g : List MemOp) : Execution := ⟨[], [[issued (.ld 5 8 0) 0x2000]], g⟩
    let whole : MemOp := ⟨0, 0, (List.range 8).map (0x2000 + ·), .both, true, false, List.replicate 8 0, []⟩
    (run [whole]).legal { c with regions := { device 0 false 0 with size := 0x2004, kind := .main } :: c.regions } = true ∧
    (run [part 0x2000 .main, part 0x2004 .device]).legal
      { c with regions := { device 0 false 0 with size := 0x2004, kind := .main } :: c.regions } = false := by decide

/-- Where one of two harts terminates the execution, both have stopped with its report (R827). -/
theorem test_termination_stops_every_hart :
    endStatus [State.reset, State.reset.terminate (.value 3)] = .terminated (.value 3) ∧
    endStatus [State.reset, State.reset] = .running := by decide

/-! ### Constrained loops and clocks (R448, R501) -/

/-- LR.W, SC.W and a branch back to the LR on failure have the form, and so has a loop with a load that a branch jumps over; a
jump to itself instead, a gap before the SC and a branch to code before the LR do not. -/
theorem test_constrained_loops :
    let lr : Placed := ⟨0x1000, .lrW 10 8 false false⟩
    let sc (a : Nat) : Placed := ⟨a, .scW 11 8 6 false false⟩
    constrainedLoop ⟨lr, [], sc 0x1004, [⟨0x1008, .bne 11 0 (BitVec.ofInt 12 (-4))⟩]⟩ = true ∧
    constrainedLoop ⟨lr, [], sc 0x1004, [⟨0x1008, .jal 0 0⟩]⟩ = false ∧
    constrainedLoop ⟨lr, [], sc 0x1008, [⟨0x100C, .bne 11 0 (BitVec.ofInt 12 (-6))⟩]⟩ = false ∧
    constrainedLoop ⟨lr, [⟨0x1004, .beq 0 0 4⟩, ⟨0x1008, .lw 7 8 0⟩], sc 0x100C,
      [⟨0x1010, .bne 11 0 (BitVec.ofInt 12 (-8))⟩]⟩ = true ∧
    constrainedLoop ⟨lr, [], sc 0x1004, [⟨0x1008, .bne 11 0 (BitVec.ofInt 12 (-5))⟩]⟩ = false := by
  decide

/-- In a loop of LR, branch, load, SC, branch: the first branch may be taken over the load or not, but not over the SC or to
itself; the load, and a multiplication in its place, may not be executed; the last branch may go back to the LR, not to the
code after it. -/
theorem test_constrained_execution :
    let skip : Placed := ⟨0x1004, .beq 0 0 4⟩
    let load : Placed := ⟨0x1008, .lw 7 8 0⟩
    let retry : Placed := ⟨0x1010, .bne 11 0 (BitVec.ofInt 12 (-8))⟩
    let l : LrScLoop := ⟨⟨0x1000, .lrW 10 8 false false⟩, [skip, load], ⟨0x100C, .scW 11 8 6 false false⟩, [retry]⟩
    ([0x1008, 0x100C, 0x1014].all fun a => l.admits skip a) = true ∧
    ([0x1000, 0x1004, 0x1010].any fun a => l.admits skip a) = false ∧
    l.admits load 0x100C = false ∧ l.admits { load with instr := .mul 7 8 9 } 0x100C = false ∧
    l.admits retry 0x1000 = true ∧ l.admits retry 0x1014 = true ∧ l.admits retry 0x1004 = false ∧
    l.admits l.lr 0x1004 = true ∧ l.admits l.sc 0x1010 = true := by decide

/-- A hart of RV32 starts with a pc of 32 bits and fcsr of 8, not with a pc of 2^32 (R861). -/
theorem test_start_widths :
    let s : State := start .rv32 64 0x1000 0 [(5, 6)] [] []
    startsIn s.cfg [] 0 s ∧ ¬ startsIn s.cfg [] 0 { s with pc := 0x100000000 } ∧ ¬ startsIn s.cfg [] 0 { s with fcsr := 256 } := by
  refine ⟨⟨rfl, by decide, rfl, rfl, rfl, rfl, rfl, by decide, ⟨by decide, by decide, by decide⟩, by decide,
    by unfold State.FcsrOk; decide, ⟨by decide, by decide, by decide⟩, fun r h => by cases h⟩, fun h => ?_, fun h => ?_⟩
  · exact absurd h.2.2.2.2.2.2.2.2.1.2.1 (by decide)
  · exact absurd h.2.2.2.2.2.2.2.2.2.2.1 (by unfold State.FcsrOk; decide)

/-- A clock adds, and stays at its greatest value. -/
theorem test_clock : clockAfter 5 7 = 12 ∧ clockAfter (BitVec.ofNat 64 (2 ^ 64 - 2)) 9 = BitVec.ofNat 64 (2 ^ 64 - 1) := by
  decide

/-- A range that grants no two-byte access cannot be fetched from (R100, R193). -/
theorem test_fetch_width :
    let s : State := start .rv64 64 0x1000 0 [] [] []
    let only (w : List Nat) : Config := { s.cfg with regions := s.cfg.regions.map fun r => { r with widths := w } }
    fetchable (only [1, 2, 4, 8]) 0x1000 = true ∧ fetchable (only [1, 4, 8]) 0x1000 = false := by decide

/-! ### Witnesses: for each obligation with hypotheses, a state that meets them -/

/-- The outcome is a next state. -/
def isNext : Host.Outcome State Fault Refusal → Bool
  | .next _ => true
  | .fault _ | .refused _ => false

theorem next_of_isNext {o : Host.Outcome State Fault Refusal} (h : isNext o = true) : ∃ t, o = .next t := by
  cases o <;> simp_all [isNext]

/-- A running state at 0x1000 with x5 = 6, x6 = 0, x7 = -1, x8 = the most negative number, x10 = 0x2000, x11 = 0x2002,
x12 = 0x9000, x13 = 0x7FFE. -/
def busy (x : Xlen) : State := start x 64 0x1000 0
  [(5, 6), (7, 0xFFFFFFFFFFFFFFFF), (8, 0x8000000080000000), (10, 0x2000), (11, 0x2002), (12, 0x9000), (13, 0x7FFE)] [] []

/-- `busy` with registers of RV32: the values XLEN bits hold. -/
def busy32 : State := start .rv32 64 0x1000 0
  [(5, 6), (7, 0xFFFFFFFF), (8, 0x80000000), (10, 0x2000), (11, 0x2002), (12, 0x9000), (13, 0x7FFE)] [] []

/-- Main memory below 0x8000, a device from there to 0x8FFF, nothing above. -/
def withDevice (s : State) : State :=
  { s with cfg := { s.cfg with regions :=
    [{ base := 0, size := 0x8000, kind := .main, fetch := true, read := true, write := true, widths := [1, 2, 4, 8, 16],
       amos := [.swap, .add], lrsc := true, eventual := true, emulable := false, strong := false, channel := 0 },
     { base := 0x8000, size := 0x1000, kind := .io, fetch := false, read := true, write := true, widths := [4],
       amos := [], lrsc := false, eventual := false, emulable := false, strong := false, channel := 0 }] } }

/-- `busy` without C, so IALIGN is 32. -/
def busyNoC : State :=
  { busy .rv64 with cfg := { (busy .rv64).cfg with ext := { (busy .rv64).cfg.ext with c := false } } }

theorem witness_DecodeEncodeRoundTrip : WellFormed resetConfig (.fmaddQ 31 30 29 28 0b111) ∧
    WellFormed (decodeConfig .rv32) (.cJal 0x7FF) := by decide

theorem witness_EncodeDecodeRoundTrip : decode resetConfig (.half 0x0001#16) = some (.cNop 0) ∧
    decode resetConfig (.word 0x0FF0000F#32) = some (.fence 0 0xF 0xF 0 0) := by decide

/-- ADDI x6, x5, 1 at 0x1000. -/
def ready : State := (busy .rv64).withFetchWord 32 0x00128313

theorem witness_StepRunsDecoded : ready.status = .running ∧ configLegal ready.cfg = true ∧ pcAligned ready = true ∧
    ready.fetch = .ok (.word 0x00128313#32) ∧ decode ready.cfg (.word 0x00128313#32) = some (.addi 6 5 1) := by
  refine ⟨rfl, by decide, by decide, ?_, by decide⟩
  rfl

/-- C.NOP in the last two bytes of a range that can be fetched. -/
def atEnd : State := (({ withDevice (busy .rv64) with pc := 0x7FFE } : State).placeByte 0x7FFE 0x01#8).placeByte 0x7FFF 0

/-- All four bytes can be fetched; and two only, which hold a 16-bit code. -/
theorem witness_FetchReadsParcels :
    (∀ k, k < 4 → fetchable ready.cfg (byteAddr ready.xlen ready.pc k) = true ∧
      isIo ready.cfg (byteAddr ready.xlen ready.pc k) = false ∧ heldBytes ready.stale (byteAddr ready.xlen ready.pc k) = []) ∧
    (∀ k, k < 2 → fetchable atEnd.cfg (byteAddr atEnd.xlen atEnd.pc k) = true ∧
      isIo atEnd.cfg (byteAddr atEnd.xlen atEnd.pc k) = false ∧ heldBytes atEnd.stale (byteAddr atEnd.xlen atEnd.pc k) = []) ∧
    fetchable atEnd.cfg (byteAddr atEnd.xlen atEnd.pc 2) = false ∧ atEnd.cfg.ext.c = true ∧
    (readByte atEnd.mem (byteAddr atEnd.xlen atEnd.pc 0)).toNat % 4 ≠ 3 := by
  decide

/-- The pc in a range that cannot be fetched, and a 32-bit code whose second parcel is. -/
def offEnd (pc : Word) : State := ({ withDevice (busy .rv64) with pc := pc } : State).placeByte pc.toNat 0x03#8

theorem witness_FetchAccessFaults :
    ((offEnd 0x8000).status = .running ∧ configLegal (offEnd 0x8000).cfg = true ∧ pcAligned (offEnd 0x8000) = true ∧
      fetchable (offEnd 0x8000).cfg (byteAddr .rv64 0x8000 0) = false) ∧
    ((offEnd 0x7FFE).status = .running ∧ configLegal (offEnd 0x7FFE).cfg = true ∧ pcAligned (offEnd 0x7FFE) = true ∧
      fetchable (offEnd 0x7FFE).cfg (byteAddr .rv64 0x7FFE 0) = true ∧
      fetchable (offEnd 0x7FFE).cfg (byteAddr .rv64 0x7FFE 1) = true ∧
      ((offEnd 0x7FFE).fetchByte (byteAddr .rv64 0x7FFE 0)).toNat % 4 = 3 ∧
      fetchable (offEnd 0x7FFE).cfg (byteAddr .rv64 (lowBits .rv64 (0x7FFE + 2)) 0) = false) := by decide

theorem witness_UndecodableTakesIllegal : State.reset.status = .running ∧ configLegal State.reset.cfg = true ∧
    pcAligned State.reset = true ∧ State.reset.fetch = .ok (.half 0x0000#16) ∧
    decode State.reset.cfg (.half 0x0000#16) = none := by
  refine ⟨rfl, by decide, by decide, ?_, by decide⟩
  rfl

/-- The widest word where all of it can be fetched, and a 16-bit code where only it can. -/
theorem witness_PlacedWordIsFetched : 2 ^ 32 - 1 < 2 ^ 32 ∧ (∀ k, k < 4 →
    fetchable (busy .rv64).cfg (byteAddr .rv64 (busy .rv64).pc k) = true ∧
      isIo (busy .rv64).cfg (byteAddr .rv64 (busy .rv64).pc k) = false) ∧ atEnd.cfg.ext.c = true ∧
    1 < 2 ^ 16 ∧ 1 % 4 ≠ 3 ∧ (∀ k, k < 2 → fetchable atEnd.cfg (byteAddr atEnd.xlen atEnd.pc k) = true ∧
      isIo atEnd.cfg (byteAddr atEnd.xlen atEnd.pc k) = false) ∧
    fetchable atEnd.cfg (byteAddr atEnd.xlen atEnd.pc 2) = false := by decide

/-- `ready` with a reservation. -/
def reserved : State := ready.reserve 8 0x2008

theorem witness_InvariantKept : reserved.Inv ∧ ∃ t, step reserved = .next t := by
  refine ⟨⟨by decide, ⟨by decide, by decide, by decide⟩, by decide, by unfold State.FcsrOk; decide, ⟨by decide, by decide,
    by decide⟩, ?_⟩, next_of_isNext (by decide)⟩
  intro r h i hi
  simp only [reserved, State.reserve, Option.some.injEq] at h
  subst h
  have : ∀ j, j < 8 → inSet (reservationSet (.granule 6) 0x2008 8) (0x2008 + j) = true := by decide
  exact this i hi

theorem witness_ConfigurationFixedClocksNeverDecrease : ∃ t, step ready = .next t := next_of_isNext (by decide)

/-- The outcome is a state in which the machine has stopped. -/
def hasStopped : Host.Outcome State Fault Refusal → Bool
  | .next t => t.status != .running
  | .fault _ | .refused _ => false

theorem next_of_hasStopped {o : Host.Outcome State Fault Refusal} (h : hasStopped o = true) :
    ∃ t, o = .next t ∧ t.status ≠ .running := by
  cases o <;> simp_all [hasStopped]

/-- An ECALL, an illegal code and a fetch that faults; ECALL by itself; a stopped machine. -/
theorem witness_OnlyTrapsTerminate :
    (∃ t, step ((busy .rv64).withFetchWord 32 0x73) = .next t ∧ t.status ≠ .running) ∧
    (∃ t, step State.reset = .next t ∧ t.status ≠ .running) ∧ (∃ t, step (offEnd 0x8000) = .next t ∧ t.status ≠ .running) ∧
    (∃ t, exec .ecall (busy .rv64) = .next t ∧ t.status ≠ .running) ∧ (busy .rv64).status = .running ∧
      ((busy .rv64).terminate (.value 3)).status = .terminated (.value 3) :=
  ⟨next_of_hasStopped (by decide), next_of_hasStopped (by decide), next_of_hasStopped (by decide),
    next_of_hasStopped (by decide), rfl, rfl⟩

theorem witness_EveryInstructionAnswersNext : trapOf .ecall (busy .rv64) = some .environmentCall ∧
    trapOf (.lw 5 11 0) (busy .rv64) = some (.loadAddressMisaligned 0x2002) ∧
    trapOf (.cLwsp 5 0) (busy .rv64) = none ∧ trapOf (.addi 5 6 1) (busy .rv64) = none := by decide

theorem witness_RegisterZeroIsHardwired : (31 : RegNum) ≠ 0 ∧ (30 : RegNum) ≠ 31 := by decide

/-- A single and a double; f6 with bit 63 clear, f7 with a boxed single. -/
theorem witness_BoxingRoundTrip : 2 ^ 32 - 1 < 2 ^ Fmt.s.width ∧ Fmt.s.width ≤ (busy .rv64).flen ∧ Fmt.s.width < Fmt.d.width ∧
    Fmt.d.width ≤ (busy .rv64).flen ∧ Fmt.d.width = (busy .rv64).flen ∧
    (let s : State := (busy .rv64).fwrite .s 7 0x3F800000
     (Fmt.s.width ≤ 63 ∧ 63 < s.flen ∧ (s.f[6]).getLsbD 63 = false) ∧
      ∀ k, k < s.flen → Fmt.s.width ≤ k → (s.f[7]).getLsbD k = true) := by decide

/-- An answer that resumes at a pc off every boundary, with a byte stored and fcsr too wide. -/
def answer (sync : Bool) : EnvEffect :=
  { pc := 0x1003, x := fill [(5, 9)], f := fill [], fcsr := 0x1FF, stores := [(0x2000, 5)], events := [], retired := 1
    keepReservation := false, syncFetch := sync }

/-- Both policies; and resuming with the fetch view grown and brought up to date. -/
theorem witness_TrapEntryAndReturn : (busy .rv64).cfg.envCall = .terminate ∧ (busy .rv64).cfg.envBreak = .terminate ∧
    (busy .rv64).cfg.envTrap = .terminate ∧
    ({ busy .rv64 with cfg := { (busy .rv64).cfg with envTrap := .environment } } : State).cfg.envTrap = .environment ∧
    (31 : RegNum) ≠ 0 ∧ (busyNoC.resume (answer false)).pc = 0x1000 ∧ ((busy .rv64).resume (answer false)).pc = 0x1002 ∧
    (busyNoC.resume (answer false)).fcsr = 0xFF ∧ readByte (busyNoC.resume (answer false)).mem 0x2000 = 5 ∧
    heldBytes (busyNoC.resume (answer false)).stale 0x2000 = [0] ∧ (busyNoC.resume (answer true)).stale = [] := by
  decide

theorem witness_EnvironmentCallAndBreakpoint :
    (busy .rv64).cfg.envCall = .terminate ∧ (busy .rv64).cfg.envBreak = .terminate := by decide

/-- x6 = 0, x7 = -1; x8 is the most negative number of 32 bits, and at XLEN = 32 of x. -/
theorem witness_DivisionByZeroAndOverflow : (busy .rv64).uval 6 = 0 ∧ (busy .rv64).uval32 6 = 0 ∧
    busy32.sval 8 = -2 ^ (busy32.xlen.bits - 1) ∧ busy32.sval 7 = -1 ∧
    (busy .rv64).sval32 8 = -2 ^ 31 ∧ (busy .rv64).sval32 7 = -1 ∧
    2 ^ 31 ≤ (busy32.sval 8).tdiv (busy32.sval 7) ∧ 2 ^ 31 ≤ ((busy .rv64).sval32 8).tdiv ((busy .rv64).sval32 7) := by
  decide

theorem witness_QuotientAndRemainder : (5 : RegNum) ≠ 0 ∧
    (∃ q, exec (.div 5 8 7) (busy .rv64) = .next q) ∧ (∃ r, exec (.rem 5 8 7) (busy .rv64) = .next r) ∧
    (∃ q, exec (.divu 5 8 6) (busy .rv64) = .next q) ∧ (∃ r, exec (.remu 5 8 6) (busy .rv64) = .next r) ∧
    (∃ q, exec (.divw 5 8 7) (busy .rv64) = .next q) ∧ (∃ r, exec (.remw 5 8 7) (busy .rv64) = .next r) ∧
    (∃ q, exec (.divuw 5 8 6) (busy .rv64) = .next q) ∧ (∃ r, exec (.remuw 5 8 6) (busy .rv64) = .next r) ∧
    busy32.sval 8 = -2 ^ (32 - 1) ∧ busy32.sval 7 = -1 ∧ (busy .rv64).sval 6 = 0 :=
  ⟨by decide, ⟨_, rfl⟩, ⟨_, rfl⟩, ⟨_, rfl⟩, ⟨_, rfl⟩, ⟨_, rfl⟩, ⟨_, rfl⟩, ⟨_, rfl⟩, ⟨_, rfl⟩, by decide,
    by decide, by decide⟩

/-- Targets 0x1002 (pc + 2) and 0x2002 (x11) are off a four-byte boundary, 0x1004 and 0x2000 (x10) on one. -/
theorem witness_Jumps :
    (targetAligned busyNoC (busyNoC.target (busyNoC.pc.toNat + 2 * (2 : BitVec 20).toInt)) ∧
      ¬ targetAligned busyNoC (busyNoC.target (busyNoC.pc.toNat + 2 * (1 : BitVec 20).toInt))) ∧
    targetAligned busyNoC (busyNoC.target (busyNoC.uval 10 + (1 : BitVec 12).toInt) / 2 * 2) ∧
      ¬ targetAligned busyNoC (busyNoC.target (busyNoC.uval 11 + (0 : BitVec 12).toInt) / 2 * 2) ∧
    targetAligned (busy .rv64) 0x1002 := by
  unfold targetAligned; decide

/-- The conditions hold and fail: x5 = 6, x6 = 0, x7 = -1. -/
theorem witness_Branches :
    ((busyNoC.uval 5 = busyNoC.uval 5 ∧ ¬ busyNoC.uval 5 = busyNoC.uval 6) ∧
      (busyNoC.sval 7 < busyNoC.sval 6 ∧ ¬ busyNoC.sval 6 < busyNoC.sval 7) ∧
      (busyNoC.uval 6 < busyNoC.uval 7 ∧ ¬ busyNoC.uval 7 < busyNoC.uval 6)) ∧
    targetAligned busyNoC (busyNoC.target (busyNoC.pc.toNat + 2 * (2 : BitVec 12).toInt)) ∧
      ¬ targetAligned busyNoC (busyNoC.target (busyNoC.pc.toNat + 2 * (1 : BitVec 12).toInt)) := by
  unfold targetAligned; decide

/-- `withDevice` under another misalignment policy. -/
def policy (m : MisalignedPolicy) (zam : Bool) (ma : MisalignedAtomicPolicy) : State :=
  { withDevice (busy .rv64) with cfg := { (withDevice (busy .rv64)).cfg with
      misaligned := m, misalignedAtomic := ma, ext := { (busy .rv64).cfg.ext with zam := zam } } }

/-- The state with ranges where misaligned accesses may be emulated. -/
def emulated (s : State) : State :=
  { s with cfg := { s.cfg with regions := s.cfg.regions.map fun r => { r with emulable := true } } }

/-- One word access for each clause, at the ends of ranges: 0x7FFC is the last word of main memory, 0x7FFE misaligned
and half in the device, 0x9000 vacant. -/
theorem witness_AccessCheckOrder :
    (0x7FFC#64).toNat % 4 = 0 ∧ (0x9000#64).toNat % 4 = 0 ∧ (0x7FFE#64).toNat % 4 ≠ 0 ∧
    accessCheck (policy .trap false .addressMisaligned) .load 4 0x7FFC = none ∧
    accessCheck (policy .trap false .addressMisaligned) .load 4 0x9000 = some (.loadAccessFault 0x9000) ∧
    accessCheck (policy .supported false .addressMisaligned) .store 4 0x7FFE = none ∧
    accessCheck (policy .supported false .addressMisaligned) .store 4 0x8FFE = some (.storeAMOAccessFault 0x8FFE) ∧
    accessCheck (policy .trap false .addressMisaligned) .store 4 0x8FFE = some (.storeAMOAddressMisaligned 0x8FFE) ∧
    (policy .either false .addressMisaligned).cfg.misaligned = .either ∧
    (policy .trap true .addressMisaligned).cfg.ext.zam = true ∧
    accessCheck (policy .trap true .addressMisaligned) (.amo .add) 4 0x2002 = none ∧
    accessCheck (policy .trap true .addressMisaligned) .lr 4 0x2002 = some (.loadAddressMisaligned 0x2002) ∧
    accessCheck (policy .trap false .accessFault) (.amo .add) 4 0x2002 = some (.storeAMOAccessFault 0x2002) ∧
    accessCheck (emulated (policy .trap false .accessFault)) (.amo .add) 4 0x2002 = some (.storeAMOAddressMisaligned 0x2002) := by
  decide

/-- A load and a store that complete, that are misaligned, and that have no memory; widths 1 to 8. -/
theorem witness_IntegerLoads :
    ([1, 2, 4, 8].all fun n => accessCheck (busy .rv64) .load n ((busy .rv64).address 10 (immValue 0)) == none) = true ∧
    accessCheck (busy .rv64) .load 4 ((busy .rv64).address 11 (immValue 0)) = some (.loadAddressMisaligned 0x2002) ∧
    accessCheck (withDevice (busy .rv64)) .load 1 ((withDevice (busy .rv64)).address 12 (immValue 0)) =
      some (.loadAccessFault 0x9000) := by decide

theorem witness_IntegerStores :
    ([1, 2, 4, 8].all fun n => accessCheck (busy .rv64) .store n ((busy .rv64).address 10 (immValue 0)) == none) = true ∧
    accessCheck (busy .rv64) .store 4 ((busy .rv64).address 11 (immValue 0)) = some (.storeAMOAddressMisaligned 0x2002) ∧
    accessCheck (withDevice (busy .rv64)) .store 1 ((withDevice (busy .rv64)).address 12 (immValue 0)) =
      some (.storeAMOAccessFault 0x9000) := by decide

theorem witness_LoadsToRegisterZero : Instr.lw ∈ [Instr.lb, .lh, .lw, .ld, .lbu, .lhu, .lwu] := by simp

/-- Eight bytes across the end of the address space, and eight others just after them. -/
theorem witness_MemoryReadAfterWrite : (∀ i, i < 8 → isIo (busy .rv64).cfg ((0xFFFFFFFFFFFFFFFC + i) % 2 ^ 64) = false) ∧
    ∀ j, j < 8 → isIo (busy .rv64).cfg ((4 + j) % 2 ^ 64) = false ∧
      ∀ i, i < 8 → (4 + j) % 2 ^ 64 ≠ (0xFFFFFFFFFFFFFFFC + i) % 2 ^ 64 := by decide

theorem witness_FenceIFieldsIgnored : resetConfig.ext.zifencei = true ∧
    (0x0000200F#32).extractLsb' 0 7 = 0x0F#7 ∧ (0x0000200F#32).extractLsb' 12 3 = 2#3 := by decide

/-- A byte overwritten with another value is held; overwritten with its own it is not. -/
theorem witness_FenceISynchronizesFetch :
    heldBytes ((busy .rv64).storeByte 0x2000 5).stale 0x2000 = [0] ∧ (busy .rv64).stale = [] ∧
    readByte (busy .rv64).mem 0x2000 = 0 ∧ isIo (busy .rv64).cfg 0x2000 = false := by decide

theorem witness_LoadReserved : configLegal (busy .rv64).cfg = true ∧
    accessCheck (busy .rv64) .lr 8 ((busy .rv64).rx 10) = none ∧ accessCheck (busy .rv64) .lr 4 ((busy .rv64).rx 10) = none ∧
    accessCheck (busy .rv64) .lr 4 ((busy .rv64).rx 11) = some (.loadAddressMisaligned 0x2002) := by decide

/-- A reservation that covers the bytes, and one that does not. -/
theorem witness_StoreConditional : accessCheck (busy .rv64) .sc 8 ((busy .rv64).rx 10) = none ∧
    accessCheck (busy .rv64) .sc 4 ((busy .rv64).rx 11) = some (.storeAMOAddressMisaligned 0x2002) ∧
    reservationCovers ((busy .rv64).reserve 8 0x2038) 4 ((busy .rv64).rx 10) = true ∧
    reservationCovers ((busy .rv64).reserve 8 0x2040) 4 ((busy .rv64).rx 10) = false := by decide

theorem witness_AtomicOperations :
    ([4, 8].all fun n => [.swap, .add, .xor, .and, .or, .min, .max, .minu, .maxu].all fun op =>
      accessCheck (busy .rv64) (.amo op) n ((busy .rv64).rx 10) == none &&
        accessCheck (busy .rv64) (.amo op) n ((busy .rv64).rx 11) == some (.storeAMOAddressMisaligned 0x2002)) = true := by
  decide

/-- fflags exists and can be written, cycle exists and cannot, 0x000 and 0xC03 do not exist. -/
theorem witness_CsrInstructions : csrAt resetConfig 0x001 = some .fflags ∧ Csr.fflags.readOnly = false ∧
    csrAt resetConfig 0xC00 = some (.counter 0) ∧ (Csr.counter 0).readOnly = true ∧
    csrAt resetConfig 0x000 = none ∧ csrAt resetConfig 0xC03 = none := by decide

/-- The ends of the ranges of addresses. -/
theorem witness_CsrExistence :
    let full : Config := { cfgWith .rv32 id with hpmImplemented := 0xFFFFFFF8#32, countersAccessible := true }
    ([0x001, 0x003, 0xC00, 0xC02, 0xC03, 0xC1F, 0xC80, 0xC9F].all fun a => (csrAt full a).isSome) = true ∧
    ([0x000, 0x004, 0xBFF, 0xC20, 0xC7F, 0xCA0].all fun a => (csrAt full a).isNone) = true ∧ full.ext.f = true := by decide

theorem witness_CountersAreReadOnly :
    (busy .rv32).cfg.ext.counters = true ∧ (busy .rv32).cfg.countersAccessible = true ∧ (busy .rv32).cfg.xlen = .rv32 ∧
    (csrAt (busy .rv32).cfg 0xC00).isSome = true ∧ (csrAt (busy .rv32).cfg 0xC82).isSome = true ∧
    ({ (busy .rv32).cfg with hpmImplemented := 0x80000008#32 } : Config).hpmImplemented.getLsbD (3 + 28) = true ∧
    0xC00 ≤ (0xC00#12).toNat ∧ (0xC82#12).toNat < 0xCA0 := by decide

theorem witness_FloatTransfers :
    ([4, 8, 16].all fun n => accessCheck (busy .rv64) .load n ((busy .rv64).address 10 (immValue 0)) == none &&
      accessCheck (busy .rv64) .store n ((busy .rv64).address 10 (immValue 0)) == none) = true ∧
    accessCheck (busy .rv64) .load 4 ((busy .rv64).address 11 (immValue 0)) = some (.loadAddressMisaligned 0x2002) := by
  decide

/-- The state with a value of frm. -/
def withFrm (k : Nat) : State := { busy .rv64 with fcsr := BitVec.ofNat 32 (32 * k) }

/-- Table 11.1: the static modes, and the dynamic mode with every value of frm. -/
theorem witness_FloatArithmetic :
    (List.range 7).map (fun k => effectiveRm (busy .rv64) (BitVec.ofNat 3 k)) =
      [some .rne, some .rtz, some .rdn, some .rup, some .rmm, none, none] ∧
    (List.range 8).map (fun k => effectiveRm (withFrm k) 0b111) =
      [some .rne, some .rtz, some .rdn, some .rup, some .rmm, none, none, none] ∧
    (List.range 8).map table111 = (List.range 8).map (fun k => effectiveRm (withFrm k) 0b111) := by
  decide

theorem witness_FloatConversions : effectiveRm (busy .rv64) 0b001 = some .rtz ∧ effectiveRm (busy .rv64) 0b111 = some .rne ∧
    effectiveRm (busy .rv64) 0b101 = none := by decide

/-- The patterns of 1, -1, the smallest subnormal and +0 denote what they should. -/
theorem fp_samples : decodeFp .s 0x3F800000 = .fin false (2 ^ 23) (-23) ∧ decodeFp .s 0xBF800000 = .fin true (2 ^ 23) (-23) ∧
    decodeFp .s 1 = .fin false 1 (-149) ∧ decodeFp .s 0 = .fin false 0 (-149) := by decide

/-- A number given exactly, a number above another by half a unit; an overflow, a number that does not, a tiny number. -/
theorem witness_RoundingCorrect :
    ((1 : Nat) ≠ 0 ∧ (true = true ↔ -(2 : ℝ) ^ (-151 : ℤ) < 0) ∧ |-(2 : ℝ) ^ (-151 : ℤ)| = ((1 : Nat) : ℝ) * 2 ^ (-151 : ℤ)) ∧
    (2 ^ (Fmt.s.fracBits + 1) ≤ (2 ^ 24 : Nat) ∧ ((2 ^ 24 : Nat) : ℝ) * 2 ^ (0 : ℤ) < |2 ^ 24 + 1 / 2| ∧
      |2 ^ 24 + 1 / 2| < (((2 ^ 24 : Nat) : ℝ) + 1) * 2 ^ (0 : ℤ)) ∧
    overflows .s .rne (2 ^ 128) ∧ ¬ overflows .s .rne 1 ∧ tiny .s .rne (1 / 2 ^ 127) := by
  refine ⟨⟨by decide, ?_, ?_⟩, ⟨by decide, ?_, ?_⟩, ?_, ?_, ?_⟩
  · simp
  · simp
  · rw [abs_of_pos (by norm_num)]; norm_num
  · rw [abs_of_pos (by norm_num)]; norm_num
  all_goals norm_num [overflows, tiny, toNearest, awayFromZero, Fmt.bias, Fmt.emin, Fmt.expBits, Fmt.fracBits, zpow_neg]

/-- 1, -1, the smallest subnormal and 0: operands for each clause. -/
theorem witness_ArithmeticIsRounded :
    finiteValue false (2 ^ 23) (-23) = 1 ∧ finiteValue true (2 ^ 23) (-23) = -1 ∧ finiteValue false 1 (-149) ≠ 0 ∧
    finiteValue false 0 (-149) = 0 := by
  norm_num [finiteValue]

/-- The ends of the range of FCVT.W: 2^31 - 1 is in it, 2^31 is above, -2^31 - 1 below, 0.5 rounds to even; a nonzero integer;
formats narrower, equal and wider. -/
theorem witness_ConversionsAreRounded :
    toIntFp .rne (-2 ^ 31) (2 ^ 31 - 1) (.fin false (2 ^ 31 - 1) 0) = (2 ^ 31 - 1, noFlags) ∧
    toIntFp .rne (-2 ^ 31) (2 ^ 31 - 1) (.fin false (2 ^ 31) 0) = (2 ^ 31 - 1, flagNV) ∧
    toIntFp .rne (-2 ^ 31) (2 ^ 31 - 1) (.fin true (2 ^ 31 + 1) 0) = (-2 ^ 31, flagNV) ∧
    toIntFp .rne (-2 ^ 31) (2 ^ 31 - 1) (.fin false 1 (-1)) = (0, flagNX) ∧ (2 ^ 64 - 1 : Int) ≠ 0 ∧
    Fmt.s.width ≤ Fmt.d.width ∧ ¬ Fmt.q.width ≤ Fmt.d.width := by decide

theorem witness_NanAndInfiniteOperands : (FpVal.nan true).isNan = true ∧ (FpVal.nan false).isNan = true ∧
    infTimesZero (.inf false) (.fin true 0 0) = true ∧ infTimesZero (.inf false) (.fin true 1 0) = false := by decide

/-- In single precision: NaNs, a number, the zeros of both signs, an infinity, the greatest subnormal, the least normal. -/
theorem witness_ComparisonAndClassification : (decodeFp .s 0x7FC00000).isNan = true ∧ (decodeFp .s 0x3F800000).isNan = false ∧
    decodeFp .s 0x80000000 = .fin true 0 (-149) ∧ decodeFp .s 0xFF800000 = .inf true ∧
    decodeFp .s 0x7F800001 = .nan true ∧ classFp .s 0x007FFFFF = 5 ∧ classFp .s 0x00800000 = 6 := by decide

/-- C.LW and C.SD offsets 0 and 31: a base on a boundary and one off it. -/
theorem witness_CompressedMemory :
    ([0, 31].all fun o => accessCheck (busy .rv64) .load 4 ((busy .rv64).address (creg 2) (scaledOffset 2 (o : BitVec 5))) == none &&
      accessCheck (busy .rv64) .store 8 ((busy .rv64).address (creg 2) (scaledOffset 3 (o : BitVec 5))) == none) = true ∧
    accessCheck (busy .rv64) .load 8 ((busy .rv64).address 2 (scaledOffset 3 (63#6))) = none ∧
    accessCheck (busy .rv64) .load 4 ((busy .rv64).address (creg 3) (scaledOffset 2 (0#5))) =
      some (.loadAddressMisaligned 0x2002) := by decide

/-- As for jumps; x8 = 6 fails and x14 = 0 meets the condition of C.BEQZ. -/
theorem witness_CompressedControl :
    targetAligned busyNoC (busyNoC.target (busyNoC.pc.toNat + 2 * (2 : BitVec 11).toInt)) ∧
    ¬ targetAligned busyNoC (busyNoC.target (busyNoC.pc.toNat + 2 * (1 : BitVec 8).toInt)) ∧
    targetAligned busyNoC (busyNoC.target (busyNoC.uval 10) / 2 * 2) ∧
    ¬ targetAligned busyNoC (busyNoC.target (busyNoC.uval 11) / 2 * 2) ∧
    busyNoC.uval (creg 6) = 0 ∧ busyNoC.uval (creg 0) ≠ 0 := by
  unfold targetAligned; decide

/-- A candidate with a store and a load on each of two harts, legal under RVTSO. -/
theorem witness_TsoIsStronger :
    (Execution.mk [] (storeBuffering (.fence 0 3 3 0 0))
      [wrote 0 0 0x2000 1, saw 0 2 0x2008 0, wrote 1 0 0x2008 1, saw 1 2 0x2000 1]).legal
        { resetConfig with ext := { resetConfig.ext with ztso := true } } = true := by decide

/-- One hart stores 1 over an initial 7 and loads before and after. -/
theorem witness_SingleHartIsSequential :
    let e : Execution := ⟨[(0x2000, 7)], [[issued (.lw 5 8 0) 0x2000, issued (.sw 6 8 0) 0x2000, issued (.lw 10 8 0) 0x2000]],
      [saw 0 0 0x2000 7, wrote 0 1 0x2000 1, saw 0 2 0x2000 1]⟩
    e.legal resetConfig = true ∧ e.streams.length = 1 ∧ e.readsFrom 0 0x2000 = none ∧ e.readsFrom 2 0x2000 = some 1 := by
  decide

end Sys2Proof.Tests
end

section
/-!
The state's own families: fcsr and its fields, NaN boxing, and the transfers between f registers, memory and x registers.
-/
namespace Sys2Proof.Machine

/-! ### fcsr as a number (R42 to R44) -/

/-- frm is bits 7:5. -/
theorem State.frm_toNat (s : State) : s.frm.toNat = s.fcsr.toNat / 32 % 8 := by
  simp [State.frm, BitVec.extractLsb'_toNat, Nat.shiftRight_eq_div_pow]

/-- fflags is bits 4:0. -/
theorem State.fflags_toNat (s : State) : s.fflags.toNat = s.fcsr.toNat % 32 := by
  simp [State.fflags, BitVec.extractLsb'_toNat]

/-- A write of the two fields leaves them, and zeros above, as the whole of fcsr (R43). -/
theorem State.setFcsr_toNat (s : State) (m : BitVec 3) (fl : FpFlags) :
    (s.setFcsr m fl).fcsr.toNat = m.toNat * 32 + fl.toNat := by
  have hlt := s.setFcsr_lt m fl
  have hfrm := (s.setFcsr m fl).frm_toNat
  have hflags := (s.setFcsr m fl).fflags_toNat
  rw [State.setFcsr_frm] at hfrm
  rw [State.setFcsr_fflags] at hflags
  omega

/-- fcsr reads as its fields with zeros above bit 7 (R43). -/
theorem State.csrRead_fcsr_toNat (s : State) : (s.csrRead .fcsr).toNat = s.fcsr.toNat % 256 := by
  have happend : (s.frm ++ s.fflags : BitVec 8).toNat = s.frm.toNat * 32 + s.fflags.toNat := by
    rw [BitVec.toNat_append, ← Nat.shiftLeft_add_eq_or_of_lt s.fflags.isLt, Nat.shiftLeft_eq]
  have h8 := (s.frm ++ s.fflags : BitVec 8).isLt
  rw [State.csrRead, BitVec.toNat_setWidth, happend, s.frm_toNat, s.fflags_toNat]
  omega

/-- Settles O16: the three writes are `setFcsr` of fields of v, the three reads the fields of fcsr. -/
theorem fcsrReservedBits : Obligations.FcsrReservedBits := by
  intro s v
  have hlow (n : Nat) : (v.extractLsb' 0 n).toNat = v.toNat % 2 ^ n := by simp [BitVec.extractLsb'_toNat]
  have hmid : (v.extractLsb' 5 3).toNat = v.toNat / 32 % 8 := by
    simp [BitVec.extractLsb'_toNat, Nat.shiftRight_eq_div_pow]
  have hfrm := s.frm_toNat
  have hflags := s.fflags_toNat
  refine ⟨?_, ?_, ?_, s.csrRead_fcsr_toNat, ?_, ?_, hfrm, hflags⟩
  · rw [State.csrWrite, State.setFcsr_toNat, hmid, hlow]
    omega
  · simp only [State.csrWrite, State.setFcsr_toNat, hlow, Nat.reducePow]
  · simp only [State.csrWrite, State.setFcsr_toNat, hlow, Nat.reducePow]
  · rw [State.csrRead, BitVec.toNat_setWidth, hfrm]
    omega
  · rw [State.csrRead, BitVec.toNat_setWidth, hflags]
    omega

/-! ### NaN boxing as numbers (R52, R53) -/

theorem State.flen_le (s : State) : s.flen ≤ 128 := Machine.flen_le s.cfg.ext

theorem Fmt.width_le (t : Fmt) : t.width ≤ 128 := by cases t <;> decide

theorem lowF_toNat {n : Nat} (v : FWord) (hn : n ≤ 128) : (lowF n v).toNat = v.toNat % 2 ^ n := by
  have hpow : 2 ^ n ≤ 2 ^ 128 := Nat.pow_le_pow_right (by decide) hn
  have hpos := Nat.two_pow_pos n
  rw [lowF, BitVec.toNat_and, BitVec.toNat_ofNat, Nat.mod_eq_of_lt (by omega), Nat.and_two_pow_sub_one_eq_mod]

/-- The bits of a boxed number: the value's own below n, ones from n up to FLEN, zeros from there on. -/
theorem testBit_boxed (f n v k : Nat) :
    (boxed f n v).testBit k = (decide (k < f) && (decide (n ≤ k) || v.testBit k)) := by
  unfold boxed
  split
  case isTrue hlt =>
    have hsplit : 2 ^ f - 2 ^ n = 2 ^ n * (2 ^ (f - n) - 1) := by
      rw [Nat.mul_sub, ← Nat.pow_add, Nat.add_sub_cancel' hlt.le, Nat.mul_one]
    rw [hsplit, Nat.add_comm, Nat.testBit_two_pow_mul_add _ (Nat.mod_lt _ (Nat.two_pow_pos n))]
    by_cases hk : k < n
    · simp [hk, Nat.testBit_mod_two_pow, hk.trans hlt]
    · have hiff : k - n < f - n ↔ k < f := by omega
      simp [hk, Nat.testBit_two_pow_sub_one, hiff, Nat.le_of_not_lt hk]
  case isFalse hge =>
    rw [Nat.testBit_mod_two_pow]
    by_cases hk : k < f
    · have : ¬ n ≤ k := by omega
      simp [this]
    · simp [hk]

/-- What a boxed write puts in the register is the box of the number written (R53). -/
theorem lowF_box_toNat {f n : Nat} (v : FWord) (hf : f ≤ 128) (hn : n ≤ 128) :
    (lowF f (box f n v)).toNat = boxed f n v.toNat := by
  apply Nat.eq_of_testBit_eq
  intro k
  rw [BitVec.testBit_toNat, lowF_getLsbD _ _ hf, testBit_boxed]
  by_cases hk : k < f
  · have hk128 : k < 128 := by omega
    simp only [box, BitVec.getLsbD_or, lowF_getLsbD _ _ hn, BitVec.getLsbD_and, BitVec.getLsbD_not, BitVec.getLsbD_ofNat,
      Nat.testBit_two_pow_sub_one, hk, hk128, BitVec.testBit_toNat]
    by_cases hkn : k < n
    · simp [hkn, Nat.not_le.mpr hkn]
    · simp [hkn, Nat.le_of_not_lt hkn]
  · simp [hk]

theorem State.wf_f_toNat (s : State) {n : Nat} (r : RegNum) (v : FWord) (hn : n ≤ 128) :
    ((s.wf n r v).f[r.toNat]'r.isLt).toNat = boxed s.flen n v.toNat := by
  rw [State.wf_f_get, if_pos rfl, lowF_box_toNat v s.flen_le hn]

theorem State.fwrite_f_toNat (s : State) {t : Fmt} (r : RegNum) {v : Nat} (hv : v < 2 ^ t.width) :
    ((s.fwrite t r v).f[r.toNat]'r.isLt).toNat = boxed s.flen t.width v := by
  have hpow : 2 ^ t.width ≤ 2 ^ 128 := Nat.pow_le_pow_right (by decide) t.width_le
  rw [State.fwrite, State.wf_f_toNat s r _ t.width_le, BitVec.toNat_ofNat, Nat.mod_eq_of_lt (hv.trans_le hpow)]

/-- A box seen at a width m below FLEN is the box up to m. -/
theorem boxed_mod {f m : Nat} (n v : Nat) (hm : m ≤ f) : boxed f n v % 2 ^ m = boxed m n v := by
  apply Nat.eq_of_testBit_eq
  intro k
  rw [Nat.testBit_mod_two_pow, testBit_boxed, testBit_boxed]
  by_cases hk : k < m
  · simp [hk, hk.trans_le hm]
  · simp [hk]

/-- The bits above w are all ones exactly where the number above them is the greatest. -/
theorem div_eq_ones_iff {w f v : Nat} (hv : v < 2 ^ f) (hw : w ≤ f) :
    v / 2 ^ w = 2 ^ (f - w) - 1 ↔ ∀ k, w ≤ k → k < f → v.testBit k = true := by
  constructor
  · intro h k hwk hkf
    have hbit : (v / 2 ^ w).testBit (k - w) = true := by
      rw [h, Nat.testBit_two_pow_sub_one]
      simp only [decide_eq_true_eq]
      omega
    rwa [Nat.testBit_div_two_pow, Nat.sub_add_cancel hwk] at hbit
  · intro h
    apply Nat.eq_of_testBit_eq
    intro k
    rw [Nat.testBit_div_two_pow, Nat.testBit_two_pow_sub_one]
    by_cases hk : k < f - w
    · simp [hk, h (k + w) (by omega) (by omega)]
    · have hlt : v < 2 ^ (k + w) := hv.trans_le (Nat.pow_le_pow_right (by decide) (by omega))
      simp [hk, Nat.testBit_lt_two_pow hlt]

/-- An operand whose bits above the format's are all ones reads as its low bits (R52). -/
theorem State.fread_of_boxed (s : State) (t : Fmt) (r : RegNum)
    (h : ∀ k, t.width ≤ k → k < s.flen → (s.f[r.toNat]'r.isLt).getLsbD k = true) :
    s.fread t r = (s.f[r.toNat]'r.isLt).toNat % 2 ^ s.flen % 2 ^ t.width := by
  rw [State.fread, lowF_toNat _ s.flen_le]
  refine if_pos (or_iff_not_imp_left.mpr fun hw => ?_)
  rw [div_eq_ones_iff (Nat.mod_lt _ (Nat.two_pow_pos _)) (by omega)]
  intro k hwk hkf
  rw [Nat.testBit_mod_two_pow, decide_eq_true hkf, BitVec.testBit_toNat, Bool.true_and]
  exact h k hwk hkf

/-- An operand with a zero above the format's bits, below FLEN, reads as the canonical NaN (R52). -/
theorem State.fread_of_unboxed (s : State) (t : Fmt) (r : RegNum) {k : Nat} (hwk : t.width ≤ k) (hkf : k < s.flen)
    (h : (s.f[r.toNat]'r.isLt).getLsbD k = false) : s.fread t r = t.nanBits := by
  rw [State.fread, lowF_toNat _ s.flen_le]
  refine if_neg (not_or.mpr ⟨by omega, fun hones => ?_⟩)
  have hbit := (div_eq_ones_iff (Nat.mod_lt _ (Nat.two_pow_pos _)) (by omega)).mp hones k hwk hkf
  rw [Nat.testBit_mod_two_pow, BitVec.testBit_toNat, h, Bool.and_false] at hbit
  exact Bool.false_ne_true hbit

/-- A boxed result read as any format at least as wide that fits is the box up to that format (R53). -/
theorem State.fread_fwrite (s : State) {t u : Fmt} (r : RegNum) {v : Nat} (hv : v < 2 ^ t.width)
    (htu : t.width ≤ u.width) (hu : u.width ≤ s.flen) : (s.fwrite t r v).fread u r = boxed u.width t.width v := by
  have hbox := s.fwrite_f_toNat r hv
  rw [State.fread_of_boxed, State.fwrite_flen, hbox, boxed_mod _ _ le_rfl, boxed_mod _ _ hu]
  intro k huk hkf
  rw [State.fwrite_flen] at hkf
  rw [← BitVec.testBit_toNat, hbox, testBit_boxed]
  simp [hkf, htu.trans huk]

/-- A pattern whose sign, exponent and quiet bits are all ones is a negative quiet NaN (R533, R537). -/
theorem quiet_nan_of_high_ones (u : Fmt) {b : Nat} (hlo : 2 ^ u.width - 2 ^ (u.fracBits - 1) ≤ b) (hhi : b < 2 ^ u.width) :
    decodeFp u b = .nan false ∧ signOf u b = true := by
  have hexp : expOf u b = 2 ^ u.expBits - 1 := by
    cases u <;> simp only [expOf, Fmt.width, Fmt.fracBits, Fmt.expBits] at * <;> omega
  have hfrac : fracOf u b / 2 ^ (u.fracBits - 1) = 1 := by
    cases u <;> simp only [fracOf, Fmt.width, Fmt.fracBits] at * <;> omega
  have hsign : b / u.signBit = 1 := by
    cases u <;> simp only [Fmt.signBit, Fmt.width, Fmt.fracBits] at * <;> omega
  have hne : fracOf u b ≠ 0 := by
    intro h0
    simp [h0] at hfrac
  simp [decodeFp, signOf, hexp, hne, hfrac, hsign]

/-- A narrower result boxed in a wider format is, read in that format, a negative quiet NaN (R53). -/
theorem quiet_nan_of_boxed {t u : Fmt} {v : Nat} (hv : v < 2 ^ t.width) (htu : t.width < u.width) :
    decodeFp u (boxed u.width t.width v) = .nan false ∧ signOf u (boxed u.width t.width v) = true := by
  have hquiet : 2 ^ t.width ≤ 2 ^ (u.fracBits - 1) := by
    refine Nat.pow_le_pow_right (by decide) ?_
    cases t <;> cases u <;> simp [Fmt.width, Fmt.fracBits] at htu ⊢
  have hwidth : 2 ^ t.width ≤ 2 ^ u.width := Nat.pow_le_pow_right (by decide) htu.le
  have hbox : boxed u.width t.width v = v + (2 ^ u.width - 2 ^ t.width) := by
    rw [boxed, if_pos htu, Nat.mod_eq_of_lt hv]
  apply quiet_nan_of_high_ones <;> omega

/-- The box of a number of the format's width, as the number above times a power of two. -/
theorem boxed_eq_ite {f n v : Nat} (hv : v < 2 ^ n) (hn : n ≤ f) :
    boxed f n v = if n = f then v else (2 ^ (f - n) - 1) * 2 ^ n + v := by
  unfold boxed
  by_cases hlt : n < f
  · rw [if_pos hlt, if_neg hlt.ne, Nat.mod_eq_of_lt hv, Nat.sub_mul, ← Nat.pow_add, Nat.sub_add_cancel hn, Nat.one_mul,
      Nat.add_comm]
  · obtain rfl : n = f := by omega
    rw [if_neg hlt, if_pos rfl, Nat.mod_eq_of_lt hv]

/-- Settles O17: a write leaves the box in the register, and a read looks at the box's bits. -/
theorem boxingRoundTrip : Obligations.BoxingRoundTrip := by
  refine ⟨fun s t u r v hv ht => ⟨?_, ?_, fun htu hu => ?_⟩, fun s t r => ⟨?_, s.fread_of_boxed t r⟩⟩
  · rw [s.fwrite_f_toNat r hv, boxed_eq_ite hv ht]
  · rw [s.fread_fwrite r hv le_rfl ht, boxed_eq_ite hv le_rfl, if_pos rfl]
  · rw [s.fread_fwrite r hv htu.le hu]
    exact quiet_nan_of_boxed hv htu
  · rintro ⟨k, hwk, hkf, hbit⟩
    rw [s.fread_of_unboxed t r hwk hkf hbit]
    cases t <;> rfl

end Sys2Proof.Machine
end

section
/-!
Accesses and results as the statements see them: the value of a read, what a write leaves unchanged, the frame of a
written register, and with these the transfers of the f registers.
-/
namespace Sys2Proof.Machine

/-! ### The value of an access by its bytes (R88) -/

/-- The bytes at the addresses of an access, put in order of significance. -/
theorem inOrder_map_accessAddrs (s : State) (n : Nat) (a : Word) (g : Nat → Byte) :
    inOrder s.cfg.endian ((accessAddrs s.xlen a n).map g) = (List.range n).map fun i => g (s.valueByteAddr n a i) := by
  cases he : s.cfg.endian with
  | little => simp [inOrder, accessAddrs, State.valueByteAddr, he, byteAddr, Function.comp_def]
  | big =>
    apply List.ext_getElem
    · simp [inOrder, accessAddrs]
    · intro i _ _
      simp [inOrder, accessAddrs, State.valueByteAddr, he, byteAddr]

theorem bytesValue_map_range (n : Nat) (g : Nat → Byte) :
    bytesValue ((List.range n).map g) = ((List.range n).map fun i => (g i).toNat * 256 ^ i).sum := by
  induction n generalizing g with
  | zero => rfl
  | succ n ih =>
    have hshift : ((List.range n).map fun i => (g (i + 1)).toNat * 256 ^ (i + 1)).sum =
        256 * ((List.range n).map fun i => (g (i + 1)).toNat * 256 ^ i).sum := by
      rw [← List.sum_map_mul_left]
      congr 1
      exact List.map_congr_left fun i _ => by ring
    rw [List.range_succ_eq_map]
    simp only [List.map_cons, List.map_map, Function.comp_def, Nat.succ_eq_add_one, bytesValue, List.sum_cons, hshift, ih,
      pow_zero, Nat.mul_one]

/-- A read gives the sum of its bytes by significance. -/
theorem State.memRead_eq_loadedValue (s : State) (n : Nat) (a : Word) : s.memRead n a = s.loadedValue n a := by
  rw [State.memRead, inOrder_map_accessAddrs, bytesValue_map_range, State.loadedValue]

theorem State.memRead_lt (s : State) (n : Nat) (a : Word) : s.memRead n a < 2 ^ (8 * n) := by
  have h := bytesValue_lt (inOrder s.cfg.endian ((accessAddrs s.xlen a n).map s.dataByte))
  rwa [inOrder_length, List.length_map, accessAddrs, List.length_map, List.length_range] at h

/-! ### What a write stores and what it leaves (R88, R104) -/

/-- The byte of a value stored at an address is the one of that significance in the byte order. -/
theorem exists_byteAddr_eq_valueByteAddr (s : State) {n i : Nat} (a : Word) (v : Nat) (hi : i < n) :
    ∃ (j : Nat) (hj : j < n), s.valueByteAddr n a i = byteAddr s.xlen a j ∧
      (inOrder s.cfg.endian (valueBytes n v))[j]'(by rwa [inOrder_length, valueBytes_length]) =
        BitVec.ofNat 8 (v / 256 ^ i) := by
  have hpow : (2 : Nat) ^ (8 * i) = 256 ^ i := by rw [Nat.pow_mul]
  cases he : s.cfg.endian with
  | little => exact ⟨i, hi, by simp [State.valueByteAddr, he, byteAddr], by simp [inOrder, valueBytes, hpow]⟩
  | big =>
    have hback : n - 1 - (n - 1 - i) = i := by omega
    exact ⟨n - 1 - i, by omega, by simp [State.valueByteAddr, he, byteAddr], by simp [inOrder, valueBytes, hback, hpow]⟩

/-- A device's addresses hold in memory what they held, whatever is stored (R104). -/
theorem State.readByte_storeBytes_of_isIo (s : State) (l : List (Nat × Byte)) {c : Nat} (hio : isIo s.cfg c = true) :
    readByte (s.storeBytes l).mem c = readByte s.mem c := by
  induction l generalizing s with
  | nil => rfl
  | cons e l ih =>
    obtain ⟨a, b⟩ := e
    rw [State.storeBytes]
    split
    case isTrue => exact ih s hio
    case isFalse ha =>
      have hne : c ≠ a := by
        rintro rfl
        exact ha hio
      rw [ih (s.storeByte a b) hio, State.storeByte_mem, readByte_writeByte, if_neg hne]

/-- Bytes that no store names keep the values a fetch may see (R71). -/
theorem State.heldBytes_storeBytes_of_not_mem (s : State) (l : List (Nat × Byte)) {c : Nat} (h : ∀ e ∈ l, e.1 ≠ c) :
    heldBytes (s.storeBytes l).stale c = heldBytes s.stale c := by
  induction l generalizing s with
  | nil => rfl
  | cons e l ih =>
    obtain ⟨a, b⟩ := e
    have ha : a ≠ c := h (a, b) List.mem_cons_self
    rw [State.storeBytes, ih _ fun e he => h e (List.mem_cons_of_mem _ he)]
    split
    case isTrue => rfl
    case isFalse =>
      simp only [State.storeByte]
      split
      case isTrue => rfl
      case isFalse => simp [heldBytes, ha]

/-- An access is recorded as a device's where it touches one. -/
theorem State.noteIo_notesIo (s : State) (k : IoKind) (n : Nat) (a : Word) (v : Nat) :
    NotesIo s (s.noteIo k n a v) k n a v := by
  unfold NotesIo State.noteIo
  split <;> rfl

theorem State.memWrite_sameBytesOutside (s : State) (n : Nat) (a : Word) (v : Nat) :
    SameBytesOutside s (s.memWrite n a v) n a := by
  intro c hc
  have hmem : c ∉ accessAddrs s.xlen a n := by
    simp only [accessAddrs, byteAddr, List.mem_map, List.mem_range, not_exists, not_and]
    exact fun i hi heq => hc i hi heq.symm
  refine ⟨s.readByte_memWrite_of_not_mem n a v c hmem, ?_⟩
  rw [State.memWrite, State.noteIo_stale]
  apply State.heldBytes_storeBytes_of_not_mem
  rintro ⟨k, b⟩ he rfl
  exact hmem (List.of_mem_zip he).1

theorem State.memWrite_storedBytes (s : State) {n : Nat} (a : Word) (v : Nat) (hn : n ≤ 2 ^ 32) :
    StoredBytes s (s.memWrite n a v) n a v := by
  refine ⟨fun i hi => ?_, s.memWrite_sameBytesOutside n a v⟩
  obtain ⟨j, hj, haddr, hbyte⟩ := exists_byteAddr_eq_valueByteAddr s a v hi
  rw [haddr]
  split
  case isTrue hio => rw [State.memWrite, State.noteIo_mem, State.readByte_storeBytes_of_isIo _ _ hio]
  case isFalse hio => rw [State.readByte_memWrite s n a v j hn hj (by simpa using hio), hbyte]

/-- A write of an access puts its value's bytes in memory, changes no others, and is recorded where it touches a device. -/
theorem State.memWrite_stored (s : State) {n : Nat} (a : Word) (v : Nat) (hn : n ≤ 2 ^ 32) :
    Stored s (s.memWrite n a v) n a v := by
  refine ⟨s.memWrite_storedBytes a v hn, ?_⟩
  have hnote := State.noteIo_notesIo
    (s.storeBytes ((accessAddrs s.xlen a n).zip (inOrder s.cfg.endian (valueBytes n v)))) .write n a v
  rwa [NotesIo, State.storeBytes_xlen, State.storeBytes_cfg, State.storeBytes_io] at hnote

/-! ### Results and frames -/

/-- A retired instruction advances the pc of the state it began in. -/
theorem advances_retire {s u : State} (len : Nat) (hcfg : u.cfg = s.cfg) (hpc : u.pc = s.pc)
    (hcount : u.instret = s.instret) : Advances s (u.retire len) len := by
  have hxlen : u.xlen = s.xlen := congrArg Config.xlen hcfg
  have hdvd : 2 ^ s.xlen.bits ∣ 2 ^ 64 := Nat.pow_dvd_pow 2 (by cases s.xlen <;> decide)
  refine ⟨?_, by rw [State.retire_instret, hcount]⟩
  rw [State.retire_pc, hxlen, hpc, lowBits_toNat, BitVec.toNat_add, BitVec.toNat_ofNat, Nat.add_mod_mod,
    Nat.mod_mod_of_dvd _ hdvd]

/-- Wrapping to a word changes no number modulo 2 ^ XLEN. -/
theorem bmod_emod_xlen (x : Xlen) (z : Int) : z.bmod (2 ^ 64) % 2 ^ x.bits = z % 2 ^ x.bits := by
  have hdvd : (2 : Int) ^ x.bits ∣ (2 ^ 64 : Nat) := by cases x <;> decide
  rw [← Int.emod_emod_of_dvd _ hdvd, Int.bmod_emod, Int.emod_emod_of_dvd _ hdvd]

/-- The number of a word modulo 2 ^ XLEN is the same signed and unsigned. -/
theorem toInt_emod_xlen (x : Xlen) (w : Word) : w.toInt % 2 ^ x.bits = (w.toNat : Int) % 2 ^ x.bits := by
  rw [BitVec.toInt_eq_toNat_bmod, bmod_emod_xlen]

/-- A written register holds the word's number modulo 2 ^ XLEN; x0 still reads 0 (R30, R31). -/
theorem State.wx_holdsX (s : State) (rd : RegNum) {w : Word} {v : Int}
    (hv : (w.toNat : Int) % 2 ^ s.xlen.bits = v % 2 ^ s.xlen.bits) : HoldsX s (s.wx rd w) rd v := by
  unfold HoldsX
  split
  case isTrue h0 => simp [h0]
  case isFalse h0 =>
    rw [State.rx_wx_self _ _ h0, lowBits_toNat, Int.natCast_emod, ← hv]
    norm_cast

/-- An instruction that only writes a word to x[rd]. -/
theorem completes_of_finishX {i : Instr} {s : State} {len : Nat} {rd : RegNum} {w : Word} {v : Int}
    (hi : exec i s = finishX s len rd w) (hv : (w.toNat : Int) % 2 ^ s.xlen.bits = v % 2 ^ s.xlen.bits) :
    Completes i s fun t => XResult s t len rd v := by
  refine ⟨_, hi.trans (finishX_eq s len rd w), ?_, ?_, ?_⟩
  · simpa [HoldsX] using s.wx_holdsX rd hv
  · exact fun r hr => by simp [hr]
  · simp [SameF, SameMem, SameBytes, SameRest, advances_retire]

/-- A boxed write of a register and no other. -/
theorem State.wf_sameFBut (s : State) (n : Nat) (rd : RegNum) (v : FWord) : SameFBut rd s (s.wf n rd v) := by
  intro r hr
  rw [State.wf_f_get, if_neg hr]

/-- A box depends on the low n bits of the value only. -/
theorem boxed_congr {n v w : Nat} (f : Nat) (h : v % 2 ^ n = w % 2 ^ n) : boxed f n v = boxed f n w := by
  unfold boxed
  split
  case isTrue => rw [h]
  case isFalse hge =>
    have hdvd : 2 ^ f ∣ 2 ^ n := Nat.pow_dvd_pow 2 (by omega)
    rw [← Nat.mod_mod_of_dvd v hdvd, h, Nat.mod_mod_of_dvd w hdvd]

/-- A transfer out of an f register takes its low bits, whatever is above them (R54). -/
theorem State.rfBits_toNat (s : State) {n : Nat} (r : RegNum) (hn : n ≤ 128) :
    (s.rfBits n r).toNat = (s.f[r.toNat]'r.isLt).toNat % 2 ^ s.flen % 2 ^ n := by
  rw [State.rfBits, lowF_toNat _ hn, lowF_toNat _ s.flen_le]

/-! ### The transfers (R54) -/

/-- The effective address is base plus offset modulo 2 ^ XLEN (R80, R295). -/
theorem State.address_toNat (s : State) (rs1 : RegNum) (imm : BitVec 12) :
    (s.address rs1 (immValue imm)).toNat = s.target (s.uval rs1 + imm.toInt) := by
  have himm : (immValue imm).toInt = imm.toInt := BitVec.toInt_signExtend_of_le (by decide)
  have hsum : ((s.rx rs1 + immValue imm).toNat : Int) % 2 ^ s.xlen.bits =
      (s.uval rs1 + imm.toInt) % 2 ^ s.xlen.bits := by
    rw [← toInt_emod_xlen, BitVec.toInt_add, bmod_emod_xlen, himm, Int.add_emod, toInt_emod_xlen, ← Int.add_emod,
      State.uval]
  rw [State.address, lowBits_toNat, State.target, ← hsum]
  norm_cast

theorem loadThen_of_trap {s : State} {ac : Access} {n : Nat} {a : Word} {c : Cause} (k : Nat → State → State)
    (h : accessCheck s ac n a = some c) : loadThen s ac n a k = .next (s.takeTrap c) := by
  simp [loadThen, h]

theorem storeThen_of_trap {s : State} {n : Nat} {a : Word} {c : Cause} (v : Nat) (k : State → State)
    (h : accessCheck s .store n a = some c) : storeThen s n a v k = .next (s.takeTrap c) := by
  simp [storeThen, h]

/-- A load into f[rd] boxes the bits read, or takes the exception of its checks (R54, R540). -/
theorem accessAnswer_of_loadF {i : Instr} {s : State} {len n : Nat} {rd : RegNum} {a : Word}
    (hi : exec i s = loadF s len n rd a) (hn : 8 * n ≤ 128) :
    AccessAnswer i s .load n a fun t => FLoad s t len n rd a := by
  have hlt : s.memRead n a < 2 ^ 128 := (s.memRead_lt n a).trans_le (Nat.pow_le_pow_right (by decide) hn)
  refine ⟨fun hok => ⟨_, hi.trans (loadThen_of_ok _ hok), ?_⟩, fun c hc => hi.trans (loadThen_of_trap _ hc)⟩
  simp only [FLoad, ← State.memRead_eq_loadedValue]
  refine ⟨?_, ?_, ?_, ?_⟩
  · rw [HoldsF, State.retire_f, State.wf_f_toNat _ _ _ hn, BitVec.toNat_ofNat, Nat.mod_eq_of_lt hlt, State.noteIo_flen]
  · simpa [SameFBut] using
      (s.noteIo .read n a (s.memRead n a)).wf_sameFBut (8 * n) rd (BitVec.ofNat 128 (s.memRead n a))
  · simp [SameX]
  · simpa [SameBytes, SameRest, advances_retire, NotesIo] using s.noteIo_notesIo .read n a (s.memRead n a)

/-- A store of n bytes of a number, or the exception of its checks (R100, R302). -/
theorem accessAnswer_of_storeThen {i : Instr} {s : State} {len n v : Nat} {a : Word}
    (hi : exec i s = storeThen s n a v fun t => t.retire len) (hn : n ≤ 2 ^ 32) :
    AccessAnswer i s .store n a fun t => StoreDone s t len n a v := by
  refine ⟨fun hok => ⟨_, hi.trans (storeThen_of_ok _ _ hok), ?_⟩, fun c hc => hi.trans (storeThen_of_trap _ _ hc)⟩
  refine ⟨s.memWrite_stored a v hn, ?_⟩
  simp [SameX, SameF, SameRest, advances_retire]

/-- A store of f[rs2] takes its low n bytes, or the exception of its checks (R54, R541). -/
theorem accessAnswer_of_storeF {i : Instr} {s : State} {len n : Nat} {rs2 : RegNum} {a : Word}
    (hi : exec i s = storeF s len n rs2 a) (hn : 8 * n ≤ 128) :
    AccessAnswer i s .store n a fun t =>
      StoreDone s t len n a ((s.f[rs2.toNat]'rs2.isLt).toNat % 2 ^ s.flen % 2 ^ (8 * n)) := by
  rw [← s.rfBits_toNat rs2 hn]
  exact accessAnswer_of_storeThen hi (by omega)

/-- A move of the low n bits of f[rs1] to x[rd], sign-extended (R564, R636). -/
theorem completes_of_moveToX {i : Instr} {s : State} {n : Nat} {rd rs1 : RegNum} (hi : exec i s = moveToX s n rd rs1)
    (hn : n ≤ 64) :
    Completes i s fun t =>
      XResult s t 4 rd ((((s.f[rs1.toNat]'rs1.isLt).toNat % 2 ^ s.flen % 2 ^ n : Nat) : Int).bmod (2 ^ n)) := by
  refine completes_of_finishX hi ?_
  rw [← toInt_emod_xlen, BitVec.toInt_signExtend_of_le hn, BitVec.toInt_eq_toNat_bmod, BitVec.toNat_ofNat,
    s.rfBits_toNat rs1 (by omega), Nat.mod_mod]

/-- A move of the low n bits of x[rs1] to f[rd], boxed (R565, R637). -/
theorem completes_of_moveToF {i : Instr} {s : State} {n v : Nat} {rd rs1 : RegNum} (hi : exec i s = moveToF s n rd rs1)
    (hn : n ≤ 128) (hv : (s.rx rs1).toNat % 2 ^ n = v % 2 ^ n) : Completes i s fun t => FResult s t n rd v := by
  have hset : ((s.rx rs1).setWidth 128).toNat = (s.rx rs1).toNat := BitVec.toNat_setWidth_of_le (by decide)
  refine ⟨_, hi, ?_, s.wf_sameFBut n rd _, ?_⟩
  · rw [HoldsF, State.retire_f, State.wf_f_toNat _ _ _ hn, hset, boxed_congr _ hv]
  · have hadv := advances_retire (s := s) (u := s.wf n rd ((s.rx rs1).setWidth 128)) 4 rfl rfl rfl
    simpa [SameX, SameMem, SameBytes, SameRest] using hadv

/-- Settles O46: each transfer is one of the four shapes, at its width. -/
theorem floatTransfers : Obligations.FloatTransfers := by
  intro s r rs1 imm
  refine ⟨s.address_toNat rs1 imm, ⟨?_, ?_, ?_⟩, ⟨?_, ?_, ?_⟩, ?_, ?_, ?_, ?_⟩
  · exact accessAnswer_of_loadF rfl (by decide)
  · exact accessAnswer_of_loadF rfl (by decide)
  · exact accessAnswer_of_loadF rfl (by decide)
  · exact accessAnswer_of_storeF rfl (by decide)
  · exact accessAnswer_of_storeF rfl (by decide)
  · exact accessAnswer_of_storeF rfl (by decide)
  · exact completes_of_moveToX (n := 32) rfl (by decide)
  · exact completes_of_moveToX (n := 64) rfl (by decide)
  · exact completes_of_moveToF rfl (by decide) (Nat.mod_mod _ _).symm
  · exact completes_of_moveToF rfl (by decide) rfl

end Sys2Proof.Machine
end

section
/-!
The integer loads as one family: each reads through the shared access rule and writes what it makes of the bytes to x[rd];
from this, that a load to x0 differs from another in that register only.
-/
namespace Sys2Proof.Machine

/-- A register write replaces the x registers and nothing else. -/
theorem State.wx_eq_with_x (s : State) (rd : RegNum) (v : Word) : s.wx rd v = { s with x := (s.wx rd v).x } := by
  by_cases h0 : rd = 0#5
  · subst h0
    rw [State.wx_zero]
  · simp [State.wx, h0]

/-- A retired register write differs from a discarded one in the x registers only (R31). -/
theorem State.retire_wx_zero_with_x (s : State) (rd : RegNum) (v w : Word) (len : Nat) :
    { (s.wx 0#5 w).retire len with x := ((s.wx rd v).retire len).x } = (s.wx rd v).retire len := by
  rw [State.wx_zero]
  exact congrArg (State.retire · len) (s.wx_eq_with_x rd v).symm

/-- An integer load is an access of its width at base plus offset, then a write of its reading of the bytes (R295). -/
theorem exec_integerLoad {load : RegNum → RegNum → BitVec 12 → Instr}
    (hload : load ∈ [Instr.lb, .lh, .lw, .ld, .lbu, .lhu, .lwu]) :
    ∃ (n : Nat) (w : Nat → Word), ∀ rd rs1 imm s, exec (load rd rs1 imm) s =
      loadThen s .load n (s.address rs1 (immValue imm)) fun v t => (t.wx rd (w v)).retire 4 := by
  simp only [List.mem_cons, List.not_mem_nil, or_false] at hload
  obtain rfl | rfl | rfl | rfl | rfl | rfl | rfl := hload
  · exact ⟨1, loadSigned 1, fun _ _ _ _ => rfl⟩
  · exact ⟨2, loadSigned 2, fun _ _ _ _ => rfl⟩
  · exact ⟨4, loadSigned 4, fun _ _ _ _ => rfl⟩
  · exact ⟨8, loadSigned 8, fun _ _ _ _ => rfl⟩
  · exact ⟨1, loadUnsigned, fun _ _ _ _ => rfl⟩
  · exact ⟨2, loadUnsigned, fun _ _ _ _ => rfl⟩
  · exact ⟨4, loadUnsigned, fun _ _ _ _ => rfl⟩

/-- Settles O34: the checks and the access do not look at rd, and after them only the register write does. -/
theorem loadsToRegisterZero : Obligations.LoadsToRegisterZero := by
  intro s rd rs1 imm load hload
  obtain ⟨n, w, hexec⟩ := exec_integerLoad hload
  rw [hexec rd, hexec 0]
  cases hcheck : accessCheck s .load n (s.address rs1 (immValue imm)) with
  | some c =>
    exact ⟨_, _, loadThen_of_trap _ hcheck, loadThen_of_trap _ hcheck, .inl ⟨c, rfl, rfl⟩⟩
  | none =>
    refine ⟨_, _, loadThen_of_ok _ hcheck, loadThen_of_ok _ hcheck, .inr ⟨?_, ?_, ?_, ?_, ?_⟩⟩
    · simp
    · simp
    · simp
    · simp [SameX]
    · exact State.retire_wx_zero_with_x _ rd _ _ 4

end Sys2Proof.Machine
end

section
/-!
The major opcode MISC-MEM: its function codes 0 and 1 are the fences, the others decode to nothing, and FENCE.I's fields
are kept by the decoder and not looked at by anything else.
-/
namespace Sys2Proof

/-- The major opcode is looked at first (R199). -/
theorem decode32Raw_of_miscMem {w : BitVec 32} (hop : opcodeF w = 0x0f#7) : decode32Raw w = decodeMiscMem w := by
  simp [decode32Raw, hop]

/-- Function code 1 is FENCE.I whatever its other fields hold (R336). -/
theorem decodeMiscMem_of_f3_one {w : BitVec 32} (hf3 : f3F w = 1#3) :
    decodeMiscMem w = some (.fenceI (rdF w) (rs1F w) (immI w)) := by
  simp [decodeMiscMem, hf3]

theorem decodeMiscMem_eq_none {w : BitVec 32} (hzero : f3F w ≠ 0#3) (hone : f3F w ≠ 1#3) : decodeMiscMem w = none := by
  unfold decodeMiscMem
  split
  next h => exact absurd h hzero
  next h => exact absurd h hone
  next => rfl

theorem decode32Raw_encI_fenceI (rd rs1 : RegNum) (imm : BitVec 12) :
    decode32Raw (encI imm rs1 0x1#3 rd 0x0f#7) = some (.fenceI rd rs1 imm) := by
  rw [decode32Raw_of_miscMem (opcodeF_encI ..), decodeMiscMem_of_f3_one (f3F_encI ..), rdF_encI, rs1F_encI, immI_encI]

end Sys2Proof

namespace Sys2Proof.Machine

/-- FENCE.I needs Zifencei and nothing else: its fields name no register, so RV32E does not restrict them (R336). -/
theorem legalInstr_fenceI (c : Config) (rd rs1 : RegNum) (imm : BitVec 12) :
    legalInstr c (.fenceI rd rs1 imm) = c.ext.zifencei := by
  simp [legalInstr, extOk, xlenOk, operandsOk, eRegsOk, xRegs]

/-- Settles O38: the decoder keeps any fields, execution uses none, and the other function codes have no row. -/
theorem fenceIFieldsIgnored : Obligations.FenceIFieldsIgnored := by
  intro c s rd rs1 imm
  refine ⟨fun hext => ?decodes, ?executes, fun w hop hzero hone => ?others⟩
  case decodes =>
    have hlegal : legalInstr c (.fenceI rd rs1 imm) = true := (legalInstr_fenceI c rd rs1 imm).trans hext
    simp [encode, decode, decode32Raw_encI_fenceI, keepLegal, hlegal]
  case executes => rfl
  case others =>
    have hraw : decode32Raw w = none := (decode32Raw_of_miscMem hop).trans (decodeMiscMem_eq_none hzero hone)
    simp [decode, hraw]

end Sys2Proof.Machine
end

section
/-!
Division as numbers: each of DIV, DIVU, REM, REMU and their W forms writes the quotient or remainder of the model's four
functions to x[rd]; from this the rows of Table 7.1, and where a quotient leaves its range.
-/
namespace Sys2Proof.Machine

/-! ### Operands and results as numbers (R30, R360) -/

theorem sext32_toInt (v : Word) : (sext32 v).toInt = (v.toNat : Int).bmod (2 ^ 32) := by
  rw [sext32, BitVec.toInt_signExtend_of_le (by decide), BitVec.toInt_setWidth]

theorem signBits_toInt (x : Xlen) (v : Word) : (signBits x v).toInt = (v.toNat : Int).bmod (2 ^ x.bits) := by
  cases x with
  | rv32 => exact sext32_toInt v
  | rv64 => exact BitVec.toInt_eq_toNat_bmod v

theorem State.sx_toInt (s : State) (r : RegNum) : (s.sx r).toInt = s.sval r := signBits_toInt s.xlen (s.rx r)

theorem State.sext32_rx_toInt (s : State) (r : RegNum) : (sext32 (s.rx r)).toInt = s.sval32 r := sext32_toInt (s.rx r)

theorem State.sval32_eq_low32_bmod (s : State) (r : RegNum) : s.sval32 r = (low32 (s.rx r) : Int).bmod (2 ^ 32) :=
  (Int.emod_bmod _ _).symm

/-- A number of 32 bits is its own wrapping. -/
theorem State.sval32_bmod (s : State) (r : RegNum) : (s.sval32 r).bmod (2 ^ 32) = s.sval32 r := Int.bmod_bmod

theorem ofInt_toNat_emod_xlen (x : Xlen) (z : Int) :
    ((BitVec.ofInt 64 z).toNat : Int) % 2 ^ x.bits = z % 2 ^ x.bits := by
  rw [← toInt_emod_xlen, BitVec.toInt_ofInt, bmod_emod_xlen]

/-- The W forms' result is the number wrapped to 32 bits, sign-extended. -/
theorem sext32_ofInt_toNat_emod_xlen (x : Xlen) (z : Int) :
    ((sext32 (BitVec.ofInt 64 z)).toNat : Int) % 2 ^ x.bits = z.bmod (2 ^ 32) % 2 ^ x.bits := by
  have hwrap : ((BitVec.ofInt 64 z).toNat : Int).bmod (2 ^ 32) = z.bmod (2 ^ 32) := by
    rw [← Int.bmod_bmod_of_dvd (by decide : 2 ^ 32 ∣ 2 ^ 64), ← BitVec.toInt_eq_toNat_bmod, BitVec.toInt_ofInt,
      Int.bmod_bmod_of_dvd (by decide)]
  rw [← toInt_emod_xlen, sext32_toInt, hwrap]

/-! ### What each instruction writes (R405 to R408, R410 to R413) -/

section
variable (s : State) (rd rs1 rs2 : RegNum)

theorem div_completes : Completes (.div rd rs1 rs2) s fun t => XResult s t 4 rd (quotS (s.sval rs1) (s.sval rs2)) := by
  rw [← s.sx_toInt, ← s.sx_toInt]
  exact completes_of_finishX rfl (ofInt_toNat_emod_xlen _ _)

theorem divu_completes : Completes (.divu rd rs1 rs2) s
    fun t => XResult s t 4 rd (quotU (s.rx rs1).toNat (s.rx rs2).toNat) :=
  completes_of_finishX rfl (ofInt_toNat_emod_xlen _ _)

theorem rem_completes : Completes (.rem rd rs1 rs2) s fun t => XResult s t 4 rd (remS (s.sval rs1) (s.sval rs2)) := by
  rw [← s.sx_toInt, ← s.sx_toInt]
  exact completes_of_finishX rfl (ofInt_toNat_emod_xlen _ _)

theorem remu_completes : Completes (.remu rd rs1 rs2) s
    fun t => XResult s t 4 rd (remU (s.rx rs1).toNat (s.rx rs2).toNat) :=
  completes_of_finishX rfl (ofInt_toNat_emod_xlen _ _)

theorem divw_completes : Completes (.divw rd rs1 rs2) s
    fun t => XResult s t 4 rd ((quotS (s.sval32 rs1) (s.sval32 rs2)).bmod (2 ^ 32)) := by
  rw [← s.sext32_rx_toInt, ← s.sext32_rx_toInt]
  exact completes_of_finishX rfl (sext32_ofInt_toNat_emod_xlen _ _)

theorem divuw_completes : Completes (.divuw rd rs1 rs2) s
    fun t => XResult s t 4 rd ((quotU (low32 (s.rx rs1)) (low32 (s.rx rs2))).bmod (2 ^ 32)) :=
  completes_of_finishX rfl (sext32_ofInt_toNat_emod_xlen _ _)

theorem remw_completes : Completes (.remw rd rs1 rs2) s
    fun t => XResult s t 4 rd ((remS (s.sval32 rs1) (s.sval32 rs2)).bmod (2 ^ 32)) := by
  rw [← s.sext32_rx_toInt, ← s.sext32_rx_toInt]
  exact completes_of_finishX rfl (sext32_ofInt_toNat_emod_xlen _ _)

theorem remuw_completes : Completes (.remuw rd rs1 rs2) s
    fun t => XResult s t 4 rd ((remU (low32 (s.rx rs1)) (low32 (s.rx rs2))).bmod (2 ^ 32)) :=
  completes_of_finishX rfl (sext32_ofInt_toNat_emod_xlen _ _)

end

/-- A result is held under any number it equals modulo 2 ^ XLEN. -/
theorem Completes.holdsX {i : Instr} {s : State} {len : Nat} {rd : RegNum} {v w : Int}
    (h : Completes i s fun t => XResult s t len rd v) (hvw : v % 2 ^ s.xlen.bits = w % 2 ^ s.xlen.bits) :
    Completes i s fun t => HoldsX s t rd w := by
  obtain ⟨t, hexec, hholds, -⟩ := h
  unfold HoldsX at hholds
  exact ⟨t, hexec, by rwa [hvw] at hholds⟩

/-! ### The rows of Table 7.1 (R414) -/

theorem quotS_zero (a : Int) : quotS a 0 = -1 := if_pos rfl

theorem quotU_zero (a : Nat) : quotU a 0 = -1 := if_pos rfl

theorem remS_zero (a : Int) : remS a 0 = a := if_pos rfl

theorem remU_zero (a : Nat) : remU a 0 = a := if_pos rfl

theorem quotS_neg_one (a : Int) : quotS a (-1) = -a := by simp [quotS]

theorem remS_neg_one (a : Int) : remS a (-1) = 0 := by simp [remS]

/-- The one negation that wraps: half of the modulus is its own negative. -/
theorem half_modulus_emod_neg (x : Xlen) :
    (2 ^ (x.bits - 1) : Int) % 2 ^ x.bits = -2 ^ (x.bits - 1) % 2 ^ x.bits := by
  cases x <;> decide

theorem neg_one_bmod_32 : (-1 : Int).bmod (2 ^ 32) = -1 := by decide

theorem all_ones_bmod_32 : (2 ^ 32 - 1 : Int).bmod (2 ^ 32) = -1 := by decide

theorem half_modulus_bmod_32 : (2 ^ 31 : Int).bmod (2 ^ 32) = -2 ^ 31 := by decide

/-! ### The range of a quotient -/

theorem State.uval_lt (s : State) (r : RegNum) : s.uval r < 2 ^ s.xlen.bits := by
  rw [State.uval]
  exact_mod_cast s.rx_toNat_lt r

theorem State.uval32_lt (s : State) (r : RegNum) : s.uval32 r < 2 ^ 32 :=
  Int.ofNat_lt.mpr (Nat.mod_lt _ (Nat.two_pow_pos 32))

theorem bmod_two_pow_range (z : Int) {n : Nat} (hn : 0 < n) :
    -2 ^ (n - 1) ≤ z.bmod (2 ^ n) ∧ z.bmod (2 ^ n) < 2 ^ (n - 1) := by
  have hhalf : ((2 ^ n : Nat) : Int) = 2 * 2 ^ (n - 1) := by
    rw [Nat.cast_pow, Nat.cast_ofNat, ← pow_succ', Nat.sub_add_cancel hn]
  have hlow := Int.le_bmod (x := z) (Nat.two_pow_pos n)
  have hhigh := Int.bmod_lt (x := z) (Nat.two_pow_pos n)
  omega

theorem State.sval_range (s : State) (r : RegNum) :
    -2 ^ (s.xlen.bits - 1) ≤ s.sval r ∧ s.sval r < 2 ^ (s.xlen.bits - 1) :=
  bmod_two_pow_range _ (by cases s.xlen <;> decide)

theorem State.sval32_range (s : State) (r : RegNum) : -2 ^ 31 ≤ s.sval32 r ∧ s.sval32 r < 2 ^ 31 :=
  bmod_two_pow_range _ (by decide)

/-- A truncated quotient is no greater in magnitude than its dividend, so it leaves a range that is symmetric but for its
lower end only at that end, and only by changing sign. -/
theorem overflow_of_tdiv_out_of_range {m a b : Int} (ha : -m ≤ a ∧ a < m) (hb : b ≠ 0)
    (hq : a.tdiv b < -m ∨ m ≤ a.tdiv b) : a = -m ∧ b = -1 := by
  have hmag : (a.tdiv b).natAbs ≤ a.natAbs := Int.natAbs_tdiv_le_natAbs a b
  have hend : a = -m := by omega
  have hdiv : (a.tdiv b).natAbs = a.natAbs / b.natAbs := Int.natAbs_tdiv a b
  have hunit : b.natAbs = 1 := by
    by_contra hne
    have := Nat.div_lt_self (n := a.natAbs) (k := b.natAbs) (by omega) (by omega)
    omega
  obtain rfl | rfl := Int.natAbs_eq_iff.mp hunit
  · rw [Nat.cast_one, Int.tdiv_one] at hq
    omega
  · exact ⟨hend, rfl⟩

/-- Settles O28: each row is the instruction's number at those operands, modulo 2 ^ XLEN. -/
theorem divisionByZeroAndOverflow : Obligations.DivisionByZeroAndOverflow := by
  intro s rd rs1 rs2
  refine ⟨fun hzero => ?zero, fun hzero => ?zero32, fun hmin hneg => ?overflow, fun hmin hneg => ?overflow32,
    overflow_of_tdiv_out_of_range (s.sval_range rs1), overflow_of_tdiv_out_of_range (s.sval32_range rs1),
    fun _ => ?unsigned, fun _ => ?unsigned32⟩
  case zero =>
    have hrx : (s.rx rs2).toNat = 0 := Int.natCast_eq_zero.mp hzero
    have hsval : s.sval rs2 = 0 := by rw [State.sval, hrx, Nat.cast_zero, Int.zero_bmod]
    refine ⟨(div_completes s rd rs1 rs2).holdsX ?_, (divu_completes s rd rs1 rs2).holdsX ?_,
      (rem_completes s rd rs1 rs2).holdsX ?_, (remu_completes s rd rs1 rs2).holdsX ?_⟩
    · rw [hsval, quotS_zero]
    · rw [hrx, quotU_zero, sub_eq_neg_add, Int.add_emod_right]
    · rw [hsval, remS_zero, State.sval, State.uval]
      exact_mod_cast Int.bmod_emod
    · rw [hrx, remU_zero, State.uval]
  case zero32 =>
    have hlow : low32 (s.rx rs2) = 0 := Int.natCast_eq_zero.mp hzero
    have hsval : s.sval32 rs2 = 0 := by rw [State.sval32_eq_low32_bmod, hlow, Nat.cast_zero, Int.zero_bmod]
    refine ⟨(divw_completes s rd rs1 rs2).holdsX ?_, (divuw_completes s rd rs1 rs2).holdsX ?_,
      (remw_completes s rd rs1 rs2).holdsX ?_, (remuw_completes s rd rs1 rs2).holdsX ?_⟩
    · rw [hsval, quotS_zero, neg_one_bmod_32]
    · rw [hlow, quotU_zero, neg_one_bmod_32, all_ones_bmod_32]
    · rw [hsval, remS_zero, s.sval32_bmod]
    · rw [hlow, remU_zero, State.sval32_eq_low32_bmod]
  case overflow =>
    refine ⟨(div_completes s rd rs1 rs2).holdsX ?_, (rem_completes s rd rs1 rs2).holdsX ?_⟩
    · rw [hneg, quotS_neg_one, hmin, neg_neg, half_modulus_emod_neg]
    · rw [hneg, remS_neg_one]
  case overflow32 =>
    refine ⟨(divw_completes s rd rs1 rs2).holdsX ?_, (remw_completes s rd rs1 rs2).holdsX ?_⟩
    · rw [hneg, quotS_neg_one, hmin, neg_neg, half_modulus_bmod_32]
    · rw [hneg, remS_neg_one, Int.zero_bmod]
  case unsigned => exact (Int.ediv_le_self _ (Int.natCast_nonneg _)).trans_lt (s.uval_lt rs1)
  case unsigned32 => exact (Int.ediv_le_self _ (Int.natCast_nonneg _)).trans_lt (s.uval32_lt rs1)

end Sys2Proof.Machine
end

section
/-!
The encoding, both ways round. An instruction's word has its opcode and function fields, which choose its row again; and a
word that chose a row is put together again from the fields the row took.
-/
namespace Sys2Proof
open Machine

/-! ### From an instruction to its code and back (R194, R727) -/

theorem decode32Raw_of_opFp {w : BitVec 32} (hop : opcodeF w = 0x53#7) : decode32Raw w = decodeOpFp w := by
  simp [decode32Raw, hop]

/-- The opcode and function fields of a word choose its instruction, one case for each major opcode (R199). FENCE.TSO is a
FENCE word, so that FENCE needs the condition on its operands (R323). -/
theorem decode32Raw_of_encode {x : Xlen} {i : Instr} {w : BitVec 32} (ho : operandsOk x i = true)
    (hcode : encode i = .word w) : decode32Raw w = some i := by
  cases i with
  | lb | lh | lw | ld | lbu | lhu | lwu => cases hcode; simp [decode32Raw, decodeLoad]
  | flw | fld | flq => cases hcode; simp [decode32Raw, decodeLoadFp]
  | sb | sh | sw | sd => cases hcode; simp [decode32Raw, decodeStore]
  | fsw | fsd | fsq => cases hcode; simp [decode32Raw, decodeStoreFp]
  | fenceI => cases hcode; exact decode32Raw_encI_fenceI ..
  | fenceTso => cases hcode; simp [decode32Raw, decodeMiscMem]
  | fence fm pred succ =>
    have hne : ¬ (fm = 8#4 ∧ pred = 3#4 ∧ succ = 3#4) := by
      rintro ⟨rfl, rfl, rfl⟩
      simp [operandsOk] at ho
    cases hcode
    simp [decode32Raw, decodeMiscMem, fence_field_tso, hne]
  | addi | slti | sltiu | xori | ori | andi | slli | srli | srai => cases hcode; simp [decode32Raw, decodeOpImm]
  | addiw | slliw | srliw | sraiw => cases hcode; simp [decode32Raw, decodeOpImm32]
  | add | sub | sll | slt | sltu | xor | srl | sra | or | and | mul | mulh | mulhsu | mulhu | div | divu | rem | remu =>
    cases hcode; simp [decode32Raw, decodeOp]
  | addw | subw | sllw | srlw | sraw | mulw | divw | divuw | remw | remuw => cases hcode; simp [decode32Raw, decodeOp32]
  | lui | auipc | jal | jalr => cases hcode; simp [decode32Raw]
  | beq | bne | blt | bge | bltu | bgeu => cases hcode; simp [decode32Raw, decodeBranch]
  | ecall | ebreak => cases hcode; rfl
  | csrrw | csrrs | csrrc | csrrwi | csrrsi | csrrci => cases hcode; simp [decode32Raw, decodeSystem]
  | lrW | scW | amoswapW | amoaddW | amoxorW | amoandW | amoorW | amominW | amomaxW | amominuW | amomaxuW
  | lrD | scD | amoswapD | amoaddD | amoxorD | amoandD | amoorD | amominD | amomaxD | amominuD | amomaxuD =>
    cases hcode; simp [decode32Raw, decodeAmo]
  | fmaddS | fmaddD | fmaddQ => cases hcode; simp [decode32Raw, decodeMadd]
  | fmsubS | fmsubD | fmsubQ => cases hcode; simp [decode32Raw, decodeMsub]
  | fnmsubS | fnmsubD | fnmsubQ => cases hcode; simp [decode32Raw, decodeNmsub]
  | fnmaddS | fnmaddD | fnmaddQ => cases hcode; simp [decode32Raw, decodeNmadd]
  | faddS | fsubS | fmulS | fdivS | fsqrtS | fsgnjS | fsgnjnS | fsgnjxS | fminS | fmaxS | feqS | fltS | fleS | fclassS
  | faddD | fsubD | fmulD | fdivD | fsqrtD | fsgnjD | fsgnjnD | fsgnjxD | fminD | fmaxD | feqD | fltD | fleD | fclassD
  | faddQ | fsubQ | fmulQ | fdivQ | fsqrtQ | fsgnjQ | fsgnjnQ | fsgnjxQ | fminQ | fmaxQ | feqQ | fltQ | fleQ | fclassQ
  | fcvtWS | fcvtWuS | fcvtLS | fcvtLuS | fcvtSW | fcvtSWu | fcvtSL | fcvtSLu | fmvXW | fmvWX | fmvXD | fmvDX
  | fcvtWD | fcvtWuD | fcvtLD | fcvtLuD | fcvtDW | fcvtDWu | fcvtDL | fcvtDLu | fcvtSD | fcvtDS | fcvtSQ | fcvtQS
  | fcvtWQ | fcvtWuQ | fcvtLQ | fcvtLuQ | fcvtQW | fcvtQWu | fcvtQL | fcvtQLu | fcvtDQ | fcvtQD =>
    cases hcode
    rw [decode32Raw_of_opFp (opcodeF_encR ..)]
    simp [decodeOpFp]
  | _ => cases hcode

/-- The fields of a parcel choose its instruction, one case for each quadrant (R727). The condition on XLEN tells apart the
rows that RV32C and RV64C have on the same bits, that on operands the rows that share a function code. -/
theorem decode16Raw_of_encode {x : Xlen} {i : Instr} {p : BitVec 16} (hx : xlenOk x i = true) (ho : operandsOk x i = true)
    (hcode : encode i = .half p) : decode16Raw x p = some i := by
  cases i with
  | cLq | cSq | cLqsp | cSqsp => cases hx
  | cAddi4spn | cFld | cLw | cFlw | cLd | cFsd | cSw | cFsw | cSd =>
    cases hcode
    simp_all [decode16Raw, decodeC0, xlenOk]
  | cSub | cXor | cOr | cAnd | cSubw | cAddw => cases hcode; simp [decode16Raw, decodeC1, decodeCa]
  | cNop | cAddi | cJal | cAddiw | cLi | cAddi16sp | cLui | cSrli | cSrai | cAndi | cJ | cBeqz | cBnez =>
    cases hcode
    simp_all [decode16Raw, decodeC1, xlenOk, operandsOk]
  | cEbreak => cases hcode; rfl
  | cSlli | cFldsp | cLwsp | cFlwsp | cLdsp | cJr | cMv | cJalr | cAdd | cFsdsp | cSwsp | cFswsp | cSdsp =>
    cases hcode
    simp_all [decode16Raw, decodeC2, xlenOk, operandsOk]
  | _ => cases hcode

theorem legalInstr_iff {c : Config} {i : Instr} :
    legalInstr c i = true ↔
      extOk c.ext i = true ∧ xlenOk c.xlen i = true ∧ operandsOk c.xlen i = true ∧ eRegsOk c.ext i = true := by
  simp only [legalInstr, Bool.and_eq_true, and_assoc]

/-- The fields of the code choose the instruction, and its row admits it. -/
theorem decode_encode {c : Config} {i : Instr} (h : WellFormed c i) : decode c (encode i) = some i := by
  obtain ⟨-, hx, ho, -⟩ := legalInstr_iff.mp h
  have hkeep : keepLegal c i = some i := if_pos h
  cases hcode : encode i with
  | half p => rw [decode, decode16Raw_of_encode hx ho hcode, Option.bind_some, hkeep]
  | word w => rw [decode, decode32Raw_of_encode ho hcode, Option.bind_some, hkeep]

/-- Settles O1: the fields of the code choose the instruction again, and the conditions of its row hold. -/
theorem decodeEncodeRoundTrip : Obligations.DecodeEncodeRoundTrip := fun _ _ => decode_encode

/-! ### A word from its fields (R195 to R197) -/

section
variable {w : BitVec 32} {op : BitVec 7} {f3 : BitVec 3}

theorem encR_of_fields {f7 : BitVec 7} {rs2 : RegNum} (hop : opcodeF w = op) (hf3 : f3F w = f3) (hf7 : f7F w = f7)
    (hrs2 : rs2F w = rs2) : encR f7 rs2 (rs1F w) f3 (rdF w) op = w := by
  subst hop hf3 hf7 hrs2
  apply BitVec.eq_of_getLsbD_eq
  intro i hi
  simp only [encR, f7F, rs2F, rs1F, f3F, rdF, opcodeF, BitVec.getLsbD_append, BitVec.getLsbD_extractLsb']
  interval_cases i <;> simp

theorem encI_of_fields {imm : BitVec 12} (hop : opcodeF w = op) (hf3 : f3F w = f3) (himm : immI w = imm) :
    encI imm (rs1F w) f3 (rdF w) op = w := by
  subst hop hf3 himm
  apply BitVec.eq_of_getLsbD_eq
  intro i hi
  simp only [encI, immI, rs1F, f3F, rdF, opcodeF, BitVec.getLsbD_append, BitVec.getLsbD_extractLsb']
  interval_cases i <;> simp

theorem encS_of_fields (hop : opcodeF w = op) (hf3 : f3F w = f3) : encS (immS w) (rs2F w) (rs1F w) f3 op = w := by
  subst hop hf3
  apply BitVec.eq_of_getLsbD_eq
  intro i hi
  simp only [encS, immS, rs2F, rs1F, f3F, opcodeF, BitVec.getLsbD_append, BitVec.getLsbD_extractLsb']
  interval_cases i <;> simp

theorem encB_of_fields (hop : opcodeF w = op) (hf3 : f3F w = f3) : encB (immB w) (rs2F w) (rs1F w) f3 op = w := by
  subst hop hf3
  apply BitVec.eq_of_getLsbD_eq
  intro i hi
  simp only [encB, immB, rs2F, rs1F, f3F, opcodeF, BitVec.getLsbD_append, BitVec.getLsbD_extractLsb']
  interval_cases i <;> simp

theorem encU_of_fields (hop : opcodeF w = op) : encU (immU w) (rdF w) op = w := by
  subst hop
  apply BitVec.eq_of_getLsbD_eq
  intro i hi
  simp only [encU, immU, rdF, opcodeF, BitVec.getLsbD_append, BitVec.getLsbD_extractLsb']
  interval_cases i <;> simp

theorem encJ_of_fields (hop : opcodeF w = op) : encJ (immJ w) (rdF w) op = w := by
  subst hop
  apply BitVec.eq_of_getLsbD_eq
  intro i hi
  simp only [encJ, immJ, rdF, opcodeF, BitVec.getLsbD_append, BitVec.getLsbD_extractLsb']
  interval_cases i <;> simp

theorem encR4_of_fields {fmt : BitVec 2} (hop : opcodeF w = op) (hfmt : fmtF w = fmt) :
    encR4 (rs3F w) fmt (rs2F w) (rs1F w) (f3F w) (rdF w) op = w := by
  subst hop hfmt
  apply BitVec.eq_of_getLsbD_eq
  intro i hi
  simp only [encR4, rs3F, fmtF, rs2F, rs1F, f3F, rdF, opcodeF, BitVec.getLsbD_append, BitVec.getLsbD_extractLsb']
  interval_cases i <;> simp

theorem encA_of_fields {f5 : BitVec 5} {rs2 : RegNum} (hop : opcodeF w = 0x2f#7) (hf3 : f3F w = f3) (hf5 : f5F w = f5)
    (hrs2 : rs2F w = rs2) : encA f5 (w.getLsbD 26) (w.getLsbD 25) rs2 (rs1F w) f3 (rdF w) = w := by
  subst hf3 hf5 hrs2
  rw [encA, ← hop]
  apply BitVec.eq_of_getLsbD_eq
  intro i hi
  simp only [f5F, rs2F, rs1F, f3F, rdF, opcodeF, BitVec.getLsbD_append, BitVec.getLsbD_extractLsb', BitVec.getLsbD_ofBool]
  interval_cases i <;> simp

/-- A shift's function field and amount are the I immediate (R257). -/
theorem f6F_append_shamtF (w : BitVec 32) : f6F w ++ shamtF w = immI w := by
  apply BitVec.eq_of_getLsbD_eq
  intro i hi
  simp only [f6F, shamtF, immI, BitVec.getLsbD_append, BitVec.getLsbD_extractLsb']
  interval_cases i <;> simp

/-- fm and the two sets of a FENCE are the I immediate (R321). -/
theorem fence_fields_append (w : BitVec 32) :
    w.extractLsb' 28 4 ++ w.extractLsb' 24 4 ++ w.extractLsb' 20 4 = immI w := by
  apply BitVec.eq_of_getLsbD_eq
  intro i hi
  simp only [immI, BitVec.getLsbD_append, BitVec.getLsbD_extractLsb']
  interval_cases i <;> simp

end

/-! ### Each major opcode's rows encode to the word they came from -/

section
variable {w : BitVec 32} {i : Instr}

theorem encode_of_decodeLoad (hop : opcodeF w = 0x03#7) (h : decodeLoad w = some i) : encode i = .word w := by
  unfold decodeLoad at h
  split at h <;> cases h
  all_goals exact congrArg Code.word (encI_of_fields hop ‹_› rfl)

theorem encode_of_decodeLoadFp (hop : opcodeF w = 0x07#7) (h : decodeLoadFp w = some i) : encode i = .word w := by
  unfold decodeLoadFp at h
  split at h <;> cases h
  all_goals exact congrArg Code.word (encI_of_fields hop ‹_› rfl)

theorem encode_of_decodeMiscMem (hop : opcodeF w = 0x0f#7) (h : decodeMiscMem w = some i) : encode i = .word w := by
  unfold decodeMiscMem at h
  split at h
  next hf3 =>
    split at h <;> cases h
    · exact congrArg Code.word (encI_of_fields hop hf3 (beq_iff_eq.mp ‹_›))
    · exact congrArg Code.word (encI_of_fields hop hf3 (fence_fields_append w).symm)
  next hf3 =>
    cases h
    exact congrArg Code.word (encI_of_fields hop hf3 rfl)
  next => cases h

theorem encode_of_decodeOpImm (hop : opcodeF w = 0x13#7) (h : decodeOpImm w = some i) : encode i = .word w := by
  have hshift (f6 : BitVec 6) (hf6 : f6F w = f6) : immI w = f6 ++ shamtF w := by rw [← hf6, f6F_append_shamtF]
  unfold decodeOpImm at h
  split at h
  case h_2 hf3 =>
    split at h <;> cases h
    exact congrArg Code.word (encI_of_fields hop hf3 (hshift _ (beq_iff_eq.mp ‹_›)))
  case h_6 hf3 =>
    split at h <;> cases h
    all_goals exact congrArg Code.word (encI_of_fields hop hf3 (hshift _ ‹_›))
  all_goals cases h
  all_goals exact congrArg Code.word (encI_of_fields hop ‹_› rfl)

theorem encode_of_decodeOpImm32 (hop : opcodeF w = 0x1b#7) (h : decodeOpImm32 w = some i) : encode i = .word w := by
  unfold decodeOpImm32 at h
  split at h
  next hf3 =>
    cases h
    exact congrArg Code.word (encI_of_fields hop hf3 rfl)
  next hf3 =>
    split at h <;> cases h
    exact congrArg Code.word (encR_of_fields hop hf3 (beq_iff_eq.mp ‹_›) rfl)
  next hf3 =>
    split at h <;> cases h
    all_goals exact congrArg Code.word (encR_of_fields hop hf3 ‹_› rfl)
  next => cases h

theorem encode_of_decodeStore (hop : opcodeF w = 0x23#7) (h : decodeStore w = some i) : encode i = .word w := by
  unfold decodeStore at h
  split at h <;> cases h
  all_goals exact congrArg Code.word (encS_of_fields hop ‹_›)

theorem encode_of_decodeStoreFp (hop : opcodeF w = 0x27#7) (h : decodeStoreFp w = some i) : encode i = .word w := by
  unfold decodeStoreFp at h
  split at h <;> cases h
  all_goals exact congrArg Code.word (encS_of_fields hop ‹_›)

theorem encode_of_decodeAmo (hop : opcodeF w = 0x2f#7) (h : decodeAmo w = some i) : encode i = .word w := by
  have hrow {f5 : BitVec 5} {f3 : BitVec 3} {rs2 : RegNum} (hf3 : f3F w = f3) (hf5 : f5F w = f5) (hrs2 : rs2F w = rs2) :=
    congrArg Code.word (encA_of_fields hop hf3 hf5 hrs2)
  unfold decodeAmo at h
  split at h
  case h_3 => cases h
  all_goals
    split at h
    case h_3 => 
      split at h <;> cases h
      exact hrow ‹_› ‹_› (beq_iff_eq.mp ‹_›)
    all_goals cases h
    all_goals exact hrow ‹_› ‹_› rfl

theorem encode_of_decodeOp (hop : opcodeF w = 0x33#7) (h : decodeOp w = some i) : encode i = .word w := by
  unfold decodeOp at h
  split at h
  case h_9 => cases h
  all_goals
    split at h <;> cases h
    all_goals exact congrArg Code.word (encR_of_fields hop ‹_› ‹_› rfl)

theorem encode_of_decodeOp32 (hop : opcodeF w = 0x3b#7) (h : decodeOp32 w = some i) : encode i = .word w := by
  unfold decodeOp32 at h
  split at h
  case h_1 hf3 | h_4 hf3 =>
    split at h <;> cases h
    all_goals exact congrArg Code.word (encR_of_fields hop hf3 ‹_› rfl)
  case h_7 => cases h
  all_goals
    split at h <;> cases h
    exact congrArg Code.word (encR_of_fields hop ‹_› (beq_iff_eq.mp ‹_›) rfl)

theorem encode_of_decodeMadd (hop : opcodeF w = 0x43#7) (h : decodeMadd w = some i) : encode i = .word w := by
  unfold decodeMadd at h
  split at h <;> cases h
  all_goals exact congrArg Code.word (encR4_of_fields hop ‹_›)

theorem encode_of_decodeMsub (hop : opcodeF w = 0x47#7) (h : decodeMsub w = some i) : encode i = .word w := by
  unfold decodeMsub at h
  split at h <;> cases h
  all_goals exact congrArg Code.word (encR4_of_fields hop ‹_›)

theorem encode_of_decodeNmsub (hop : opcodeF w = 0x4b#7) (h : decodeNmsub w = some i) : encode i = .word w := by
  unfold decodeNmsub at h
  split at h <;> cases h
  all_goals exact congrArg Code.word (encR4_of_fields hop ‹_›)

theorem encode_of_decodeNmadd (hop : opcodeF w = 0x4f#7) (h : decodeNmadd w = some i) : encode i = .word w := by
  unfold decodeNmadd at h
  split at h <;> cases h
  all_goals exact congrArg Code.word (encR4_of_fields hop ‹_›)

theorem encode_of_decodeOpFp (hop : opcodeF w = 0x53#7) (h : decodeOpFp w = some i) : encode i = .word w := by
  unfold decodeOpFp at h
  repeat' split at h
  all_goals cases h
  all_goals simp_all [encode, encR_of_fields]

theorem encode_of_decodeBranch (hop : opcodeF w = 0x63#7) (h : decodeBranch w = some i) : encode i = .word w := by
  unfold decodeBranch at h
  split at h <;> cases h
  all_goals exact congrArg Code.word (encB_of_fields hop ‹_›)

theorem encode_of_decodeSystem (hop : opcodeF w = 0x73#7) (h : decodeSystem w = some i) : encode i = .word w := by
  unfold decodeSystem at h
  split at h
  case h_1 =>
    split at h
    · cases h
      exact congrArg Code.word (beq_iff_eq.mp ‹_›).symm
    · split at h <;> cases h
      exact congrArg Code.word (beq_iff_eq.mp ‹_›).symm
  all_goals cases h
  all_goals exact congrArg Code.word (encI_of_fields hop ‹_› rfl)

/-- What a word decodes to encodes to the word: no bit of it is dropped. -/
theorem encode_of_decode32Raw (h : decode32Raw w = some i) : encode i = .word w := by
  unfold decode32Raw at h
  split at h
  next hop => exact encode_of_decodeLoad hop h
  next hop => exact encode_of_decodeLoadFp hop h
  next hop => exact encode_of_decodeMiscMem hop h
  next hop => exact encode_of_decodeOpImm hop h
  next hop =>
    cases h
    exact congrArg Code.word (encU_of_fields hop)
  next hop => exact encode_of_decodeOpImm32 hop h
  next hop => exact encode_of_decodeStore hop h
  next hop => exact encode_of_decodeStoreFp hop h
  next hop => exact encode_of_decodeAmo hop h
  next hop => exact encode_of_decodeOp hop h
  next hop =>
    cases h
    exact congrArg Code.word (encU_of_fields hop)
  next hop => exact encode_of_decodeOp32 hop h
  next hop => exact encode_of_decodeMadd hop h
  next hop => exact encode_of_decodeMsub hop h
  next hop => exact encode_of_decodeNmsub hop h
  next hop => exact encode_of_decodeNmadd hop h
  next hop => exact encode_of_decodeOpFp hop h
  next hop => exact encode_of_decodeBranch hop h
  next hop =>
    split at h <;> cases h
    exact congrArg Code.word (encI_of_fields hop (beq_iff_eq.mp ‹_›) rfl)
  next hop =>
    cases h
    exact congrArg Code.word (encJ_of_fields hop)
  next hop => exact encode_of_decodeSystem hop h
  next => cases h

end

theorem keepLegal_eq_some {c : Config} {i j : Instr} (h : keepLegal c j = some i) : j = i := by
  unfold keepLegal at h
  split at h
  · exact Option.some.inj h
  · cases h

/-! ### A parcel from its fields (R724, R726) -/

section
variable {p : BitVec 16} {op : BitVec 2} {f3 : BitVec 3}

/-- Function code and bit 12 are the four-bit function code of the CR format. -/
theorem encCr_of_fields {f4 : BitVec 4} {r s : RegNum} (hop : cOp p = op) (hf4 : cF3 p ++ p.extractLsb' 12 1 = f4)
    (hr : cR p = r) (hs : cS p = s) : encCr f4 r s op = p := by
  subst hop hf4 hr hs
  apply BitVec.eq_of_getLsbD_eq
  intro i hi
  simp only [encCr, cF3, cR, cS, cOp, BitVec.getLsbD_append, BitVec.getLsbD_extractLsb']
  interval_cases i <;> simp

theorem encCi_of_fields {r : RegNum} (hop : cOp p = op) (hf3 : cF3 p = f3) (hr : cR p = r) :
    encCi f3 (cImm6 p) r op = p := by
  subst hop hf3 hr
  apply BitVec.eq_of_getLsbD_eq
  intro i hi
  simp only [encCi, cImm6, cF3, cR, cOp, BitVec.getLsbD_append, BitVec.getLsbD_extractLsb']
  interval_cases i <;> simp

theorem encCss_of_fields (hop : cOp p = op) (hf3 : cF3 p = f3) : encCss f3 (cOff6 p) (cS p) op = p := by
  subst hop hf3
  apply BitVec.eq_of_getLsbD_eq
  intro i hi
  simp only [encCss, cOff6, cF3, cS, cOp, BitVec.getLsbD_append, BitVec.getLsbD_extractLsb']
  interval_cases i <;> simp

theorem encCiw_of_fields (hop : cOp p = op) (hf3 : cF3 p = f3) : encCiw f3 (cImm8 p) (cR2 p) op = p := by
  subst hop hf3
  apply BitVec.eq_of_getLsbD_eq
  intro i hi
  simp only [encCiw, cImm8, cF3, cR2, cOp, BitVec.getLsbD_append, BitVec.getLsbD_extractLsb']
  interval_cases i <;> simp

theorem encCl_of_fields (hop : cOp p = op) (hf3 : cF3 p = f3) : encCl f3 (cOff5 p) (cR1 p) (cR2 p) op = p := by
  subst hop hf3
  apply BitVec.eq_of_getLsbD_eq
  intro i hi
  simp only [encCl, cOff5, cF3, cR1, cR2, cOp, BitVec.getLsbD_append, BitVec.getLsbD_extractLsb']
  interval_cases i <;> simp

/-- Function code, bit 12 and bits 11:10 are the six-bit function code of the CA format. -/
theorem encCa_of_fields {f6 : BitVec 6} {f2 : BitVec 2} (hop : cOp p = op)
    (hf6 : cF3 p ++ p.extractLsb' 12 1 ++ p.extractLsb' 10 2 = f6) (hf2 : p.extractLsb' 5 2 = f2) :
    encCa f6 (cR1 p) f2 (cR2 p) op = p := by
  subst hop hf6 hf2
  apply BitVec.eq_of_getLsbD_eq
  intro i hi
  simp only [encCa, cF3, cR1, cR2, cOp, BitVec.getLsbD_append, BitVec.getLsbD_extractLsb']
  interval_cases i <;> simp

theorem encCb_of_fields (hop : cOp p = op) (hf3 : cF3 p = f3) : encCb f3 (cOff8 p) (cR1 p) op = p := by
  subst hop hf3
  apply BitVec.eq_of_getLsbD_eq
  intro i hi
  simp only [encCb, cOff8, cF3, cR1, cOp, BitVec.getLsbD_append, BitVec.getLsbD_extractLsb']
  interval_cases i <;> simp

theorem encCs6_of_fields {f2 : BitVec 2} (hop : cOp p = op) (hf3 : cF3 p = f3) (hf2 : p.extractLsb' 10 2 = f2) :
    encCs6 f3 f2 (cImm6 p) (cR1 p) op = p := by
  subst hop hf3 hf2
  apply BitVec.eq_of_getLsbD_eq
  intro i hi
  simp only [encCs6, cImm6, cF3, cR1, cOp, BitVec.getLsbD_append, BitVec.getLsbD_extractLsb']
  interval_cases i <;> simp

theorem encCj_of_fields (hop : cOp p = op) (hf3 : cF3 p = f3) : encCj f3 (cOff11 p) op = p := by
  subst hop hf3
  apply BitVec.eq_of_getLsbD_eq
  intro i hi
  simp only [encCj, cOff11, cF3, cOp, BitVec.getLsbD_append, BitVec.getLsbD_extractLsb']
  interval_cases i <;> simp

end

/-! ### Each quadrant's rows encode to the parcel they came from -/

section
variable {x : Xlen} {p : BitVec 16} {i : Instr}

/-- What is left of two bits after 0, 1 and 2. -/
theorem eq_three_of_ne {b : BitVec 2} (h0 : b ≠ 0#2) (h1 : b ≠ 1#2) (h2 : b ≠ 2#2) : b = 3#2 := by
  bv_omega

theorem eq_one_of_ne_zero {b : BitVec 1} (h0 : b ≠ 0#1) : b = 1#1 := by
  bv_omega

/-- What is left of three bits after 0 to 6. -/
theorem eq_seven_of_ne {b : BitVec 3} (h0 : b ≠ 0#3) (h1 : b ≠ 1#3) (h2 : b ≠ 2#3) (h3 : b ≠ 3#3) (h4 : b ≠ 4#3)
    (h5 : b ≠ 5#3) (h6 : b ≠ 6#3) : b = 7#3 := by
  bv_omega

theorem encode_of_decodeC0 (hop : cOp p = 0#2) (h : decodeC0 x p = some i) : encode i = .half p := by
  unfold decodeC0 at h
  split at h
  case h_1 hf3 =>
    cases h
    simp [encode, encCiw_of_fields hop hf3]
  case h_4 hf3 | h_7 hf3 =>
    split at h <;> cases h
    all_goals simp [encode, encCl_of_fields hop hf3]
  case h_8 => cases h
  all_goals
    cases h
    simp [encode, encCl_of_fields hop ‹_›]

theorem encode_of_decodeCa (hop : cOp p = 1#2) (hf3 : cF3 p = 4#3) (hf2 : p.extractLsb' 10 2 = 3#2)
    (h : decodeCa p = some i) : encode i = .half p := by
  have hrow {b : BitVec 1} {f2 : BitVec 2} {f6 : BitVec 6} (hb : p.extractLsb' 12 1 = b) (hf2' : p.extractLsb' 5 2 = f2)
      (hf6 : 4#3 ++ b ++ 3#2 = f6) : Code.half (encCa f6 (cR1 p) f2 (cR2 p) 1#2) = .half p :=
    congrArg Code.half (encCa_of_fields hop (by rw [hf3, hb, hf2, hf6]) hf2')
  unfold decodeCa at h
  split at h <;> cases h
  all_goals exact hrow ‹_› ‹_› rfl

theorem encode_of_decodeC1 (hop : cOp p = 1#2) (h : decodeC1 x p = some i) : encode i = .half p := by
  unfold decodeC1 at h
  split at h
  next hf3 =>
    split at h <;> cases h
    · exact congrArg Code.half (encCi_of_fields hop hf3 ‹_›)
    · exact congrArg Code.half (encCi_of_fields hop hf3 rfl)
  next hf3 =>
    split at h <;> cases h
    · simp [encode, encCj_of_fields hop hf3]
    · simp [encode, encCi_of_fields hop hf3 rfl]
  next hf3 =>
    cases h
    simp [encode, encCi_of_fields hop hf3 rfl]
  next hf3 =>
    split at h <;> cases h
    · rw [encode, addi16spField_addi16spOf]
      exact congrArg Code.half (encCi_of_fields hop hf3 ‹_›)
    · exact congrArg Code.half (encCi_of_fields hop hf3 rfl)
  next hf3 =>
    split at h
    case h_4 =>
      have hf2 : p.extractLsb' 10 2 = 3#2 := eq_three_of_ne ‹_› ‹_› ‹_›
      exact encode_of_decodeCa hop hf3 hf2 h
    all_goals
      cases h
      simp [encode, encCs6_of_fields hop hf3 ‹_›]
  next hf3 =>
    cases h
    simp [encode, encCj_of_fields hop hf3]
  next hf3 =>
    cases h
    simp [encode, encCb_of_fields hop hf3]
  next =>
    cases h
    have hf3 : cF3 p = 7#3 := eq_seven_of_ne ‹_› ‹_› ‹_› ‹_› ‹_› ‹_› ‹_›
    simp [encode, encCb_of_fields hop hf3]

theorem encode_of_decodeC2 (hop : cOp p = 2#2) (h : decodeC2 x p = some i) : encode i = .half p := by
  unfold decodeC2 at h
  split at h
  next hf3 =>
    cases h
    simp [encode, encCi_of_fields hop hf3 rfl]
  next hf3 =>
    cases h
    simp [encode, encCi_of_fields hop hf3 rfl]
  next hf3 =>
    cases h
    simp [encode, encCi_of_fields hop hf3 rfl]
  next hf3 =>
    split at h <;> cases h
    all_goals simp [encode, encCi_of_fields hop hf3 rfl]
  next hf3 =>
    have hrow {b : BitVec 1} {f4 : BitVec 4} {r rs : RegNum} (hb : p.extractLsb' 12 1 = b) (hf4 : 4#3 ++ b = f4)
        (hr : cR p = r) (hs : cS p = rs) : Code.half (encCr f4 r rs 2#2) = .half p :=
      congrArg Code.half (encCr_of_fields hop (by rw [hf3, hb, hf4]) hr hs)
    split at h
    next hb =>
      split at h <;> cases h
      · exact hrow hb rfl rfl ‹_›
      · exact hrow hb rfl rfl rfl
    next hb =>
      have hb1 : p.extractLsb' 12 1 = 1#1 := eq_one_of_ne_zero hb
      split at h
      · split at h <;> cases h
        · exact hrow hb1 rfl ‹_› ‹_›
        · exact hrow hb1 rfl rfl ‹_›
      · cases h
        exact hrow hb1 rfl rfl rfl
  next hf3 =>
    cases h
    simp [encode, encCss_of_fields hop hf3]
  next hf3 =>
    cases h
    simp [encode, encCss_of_fields hop hf3]
  next =>
    have hf3 : cF3 p = 7#3 := eq_seven_of_ne ‹_› ‹_› ‹_› ‹_› ‹_› ‹_› ‹_›
    split at h <;> cases h
    all_goals simp [encode, encCss_of_fields hop hf3]

/-- What a parcel decodes to encodes to the parcel. -/
theorem encode_of_decode16Raw (h : decode16Raw x p = some i) : encode i = .half p := by
  unfold decode16Raw at h
  split at h
  next hop => exact encode_of_decodeC0 hop h
  next hop => exact encode_of_decodeC1 hop h
  next hop => exact encode_of_decodeC2 hop h
  next => cases h

end

/-- Settles O2: each row's fields put its code together again, and `decode` keeps what its row admits. -/
theorem encodeDecodeRoundTrip : Obligations.EncodeDecodeRoundTrip := by
  intro c code i h
  refine ⟨?_, legal_of_decode h⟩
  cases code with
  | half p =>
    obtain ⟨j, hraw, hkeep⟩ := Option.bind_eq_some_iff.mp h
    obtain rfl := keepLegal_eq_some hkeep
    exact encode_of_decode16Raw hraw
  | word w =>
    obtain ⟨j, hraw, hkeep⟩ := Option.bind_eq_some_iff.mp h
    obtain rfl := keepLegal_eq_some hkeep
    exact encode_of_decode32Raw hraw

end Sys2Proof
end

section
/-!
What a step keeps, and what every instruction answers. Each operation on the state is shown once to keep the parts of the
invariant (`Keeps`), each shape of meaning is composed of these (`Counted`), and one case split over the instructions says
that every meaning is one of the shapes (`exec_answers`).
-/
namespace Sys2Proof.Machine

/-! ### What the operations before retirement keep -/

/-- Every part of the invariant that does not speak of the pc carries over from s to u, and u differs from s in no counter,
not in the pc, and in nothing that no instruction changes by itself. -/
structure Keeps (s u : State) : Prop where
  cfg : u.cfg = s.cfg
  hart : u.hart = s.hart
  status : u.status = s.status
  cycle : u.cycle = s.cycle
  time : u.time = s.time
  pc : u.pc = s.pc
  instret : u.instret = s.instret
  x : (∀ i : Fin 32, lowBits s.xlen s.x[i] = s.x[i]) → ∀ i : Fin 32, lowBits u.xlen u.x[i] = u.x[i]
  f : (∀ i : Fin 32, lowF s.flen s.f[i] = s.f[i]) → ∀ i : Fin 32, lowF u.flen u.f[i] = u.f[i]
  fcsr : s.FcsrOk → u.FcsrOk
  mem : s.MemOk → u.MemOk
  reservation : configLegal s.cfg = true → s.ReservationOk → u.ReservationOk

theorem Keeps.refl (s : State) : Keeps s s where
  cfg := rfl
  hart := rfl
  status := rfl
  cycle := rfl
  time := rfl
  pc := rfl
  instret := rfl
  x := id
  f := id
  fcsr := id
  mem := id
  reservation _ := id

theorem Keeps.trans {s u t : State} (h : Keeps s u) (k : Keeps u t) : Keeps s t where
  cfg := k.cfg.trans h.cfg
  hart := k.hart.trans h.hart
  status := k.status.trans h.status
  cycle := k.cycle.trans h.cycle
  time := k.time.trans h.time
  pc := k.pc.trans h.pc
  instret := k.instret.trans h.instret
  x := k.x ∘ h.x
  f := k.f ∘ h.f
  fcsr := k.fcsr ∘ h.fcsr
  mem := k.mem ∘ h.mem
  reservation hc := k.reservation (h.cfg ▸ hc) ∘ h.reservation hc

theorem State.keeps_wx (s : State) (rd : RegNum) (v : Word) : Keeps s (s.wx rd v) where
  cfg := by simp
  hart := by simp
  status := by simp
  cycle := by simp
  time := by simp
  pc := by simp
  instret := by simp
  x h i := by
    by_cases h0 : rd = 0#5
    · simpa [h0] using h i
    · by_cases hi : rd.toNat = i.val
      · simp [State.wx, h0, hi, State.xlen]
      · have := h i
        simp_all [State.wx, State.xlen]
  f h := by simpa using h
  fcsr h := by simpa [State.FcsrOk] using h
  mem h := by simpa [State.MemOk] using h
  reservation _ h := by simpa [State.ReservationOk] using h

theorem State.keeps_wf (s : State) (n : Nat) (rd : RegNum) (v : FWord) : Keeps s (s.wf n rd v) where
  cfg := rfl
  hart := rfl
  status := rfl
  cycle := rfl
  time := rfl
  pc := rfl
  instret := rfl
  x := id
  f h i := by
    by_cases hi : rd.toNat = i.val
    · simp [State.wf, hi, State.flen]
    · have := h i
      simp_all [State.wf, State.flen]
  fcsr := id
  mem := id
  reservation _ := id

theorem State.keeps_setFcsr (s : State) (m : BitVec 3) (fl : FpFlags) : Keeps s (s.setFcsr m fl) :=
  { Keeps.refl s with fcsr := fun _ => s.setFcsr_lt m fl }

theorem State.keeps_csrWrite (s : State) (c : Csr) (v : Word) : Keeps s (s.csrWrite c v) := by
  cases c with
  | fflags | frm | fcsr => exact s.keeps_setFcsr _ _
  | counter | counterH => exact .refl s

theorem State.keeps_noteIo (s : State) (k : IoKind) (n : Nat) (a : Word) (v : Nat) : Keeps s (s.noteIo k n a v) := by
  unfold State.noteIo
  split
  · exact { Keeps.refl s with }
  · exact .refl s

theorem State.keeps_syncFetch (s : State) : Keeps s { s with stale := [] } :=
  { Keeps.refl s with mem := fun ⟨hwf, hmem, _⟩ => ⟨hwf, hmem, rfl⟩ }

theorem State.keeps_dropReservation (s : State) : Keeps s { s with reservation := none } :=
  { Keeps.refl s with reservation := fun _ _ _ h => by cases h }

/-! ### Stores stay in the address space (R80) -/

theorem addressesBelow_iff {bound : Nat} {l : List Host.Cell} : addressesBelow bound l = true ↔ ∀ c ∈ l, c.1 < bound := by
  simp [addressesBelow]

theorem mem_of_mem_eraseByte {a : Nat} {m : Memory} {c : Host.Cell} (h : c ∈ eraseByte a m) : c ∈ m := by
  induction m with
  | nil => exact h
  | cons e m ih =>
    unfold eraseByte at h
    split at h
    · exact List.mem_cons_of_mem _ (ih h)
    · rcases List.mem_cons.mp h with rfl | h
      · exact List.mem_cons_self
      · exact List.mem_cons_of_mem _ (ih h)

theorem mem_of_mem_insertByte {a : Nat} {b : Byte} {m : Memory} {c : Host.Cell} (h : c ∈ insertByte a b m) :
    c = (a, b) ∨ c ∈ m := by
  induction m with
  | nil => exact .inl (List.mem_singleton.mp h)
  | cons e m ih =>
    unfold insertByte at h
    split at h
    · exact List.mem_cons.mp h
    · rcases List.mem_cons.mp h with rfl | h
      · exact .inr List.mem_cons_self
      · exact (ih h).imp_right (List.mem_cons_of_mem _)

theorem mem_of_mem_writeByte {m : Memory} {a : Nat} {b : Byte} {c : Host.Cell} (h : c ∈ writeByte m a b) :
    c = (a, b) ∨ c ∈ m := by
  unfold writeByte at h
  split at h
  · exact .inr (mem_of_mem_eraseByte h)
  · exact (mem_of_mem_insertByte h).imp_right mem_of_mem_eraseByte

theorem State.memOk_storeByte {s : State} {a : Nat} (b : Byte) (ha : a < 2 ^ s.xlen.bits) (h : s.MemOk) :
    (s.storeByte a b).MemOk := by
  obtain ⟨hwf, hmem, hstale⟩ := h
  rw [addressesBelow_iff] at hmem hstale
  refine ⟨s.storeByte_wf a b hwf, addressesBelow_iff.mpr fun c hc => ?_, addressesBelow_iff.mpr fun c hc => ?_⟩
  · rcases mem_of_mem_writeByte hc with rfl | hc
    · exact ha
    · exact hmem c hc
  · simp only [State.storeByte] at hc
    split at hc
    · exact hstale c hc
    · rcases List.mem_cons.mp hc with rfl | hc
      · exact ha
      · exact hstale c hc

theorem State.keeps_storeByte {s : State} {a : Nat} (b : Byte) (ha : a < 2 ^ s.xlen.bits) : Keeps s (s.storeByte a b) :=
  { Keeps.refl s with mem := State.memOk_storeByte b ha }

theorem State.keeps_storeBytes {s : State} {l : List (Nat × Byte)} (hl : ∀ e ∈ l, e.1 < 2 ^ s.xlen.bits) :
    Keeps s (s.storeBytes l) := by
  induction l generalizing s with
  | nil => exact .refl s
  | cons e l ih =>
    obtain ⟨a, b⟩ := e
    have htail : ∀ e ∈ l, e.1 < 2 ^ s.xlen.bits := fun e he => hl e (List.mem_cons_of_mem _ he)
    rw [State.storeBytes]
    split
    · exact ih htail
    · exact (s.keeps_storeByte b (hl (a, b) List.mem_cons_self)).trans (ih htail)

theorem State.keeps_memWrite (s : State) (n : Nat) (a : Word) (v : Nat) : Keeps s (s.memWrite n a v) := by
  refine (State.keeps_storeBytes ?_).trans (State.keeps_noteIo ..)
  rintro ⟨c, b⟩ he
  obtain ⟨i, -, rfl⟩ := List.mem_map.mp (List.of_mem_zip he).1
  exact byteAddr_lt ..

/-! ### Reservations hold what their LR read (R438) -/

/-- An aligned access of at most 8 bytes lies in one granule, and an arbitrary set holds it by its own rule. -/
theorem inSet_reservationSet {p : ReservationPolicy} {a n i : Nat} (hp : reservationLegal p = true) (hn : n ∣ 8)
    (ha : a % n = 0) (hi : i < n) : inSet (reservationSet p a n) (a + i) = true := by
  cases p with
  | arbitrary => simp [reservationSet, inSet, hi]
  | granule k =>
    have hk : 3 ≤ k := of_decide_eq_true hp
    have hdvd : n ∣ 2 ^ k := hn.trans (pow_dvd_pow 2 hk)
    have hsplit := Nat.div_add_mod' a (2 ^ k)
    have hmod : a % 2 ^ k % n = 0 := by rw [Nat.mod_mod_of_dvd _ hdvd, ha]
    obtain ⟨q, hq⟩ := Nat.dvd_of_mod_eq_zero hmod
    obtain ⟨c, hc⟩ := hdvd
    have hlt : a % 2 ^ k < 2 ^ k := Nat.mod_lt _ (Nat.two_pow_pos k)
    have hqc : q < c := by
      rw [hq, hc] at hlt
      exact Nat.lt_of_mul_lt_mul_left hlt
    have hfit : n * q + n ≤ n * c := by
      rw [← Nat.mul_succ]
      exact Nat.mul_le_mul_left n hqc
    simp only [reservationSet, inSet, List.any_cons, List.any_nil, Bool.or_false, Bool.and_eq_true, decide_eq_true_eq]
    omega

theorem State.keeps_reserve {s : State} {n : Nat} {a : Word} (hn : n ∣ 8) (ha : alignedTo n a = true) :
    Keeps s (s.reserve n a) :=
  { Keeps.refl s with
    reservation := fun hc _ r hr i hi => by
      obtain rfl : _ = r := Option.some.inj hr
      simp only [configLegal, Bool.and_eq_true] at hc
      obtain ⟨⟨⟨-, hgranule⟩, -⟩, -⟩ := hc
      exact inSet_reservationSet hgranule hn (beq_iff_eq.mp ha) hi }

/-! ### Completing an instruction -/

/-- The instruction i completed from s to t and was counted; where it exists in the configuration, the invariant is kept. -/
structure Counted (i : Instr) (s t : State) : Prop where
  cfg : t.cfg = s.cfg
  hart : t.hart = s.hart
  status : t.status = s.status
  cycle : t.cycle = s.cycle
  time : t.time = s.time
  instret : t.instret = s.instret + 1
  inv : legalInstr s.cfg i = true → s.Inv → t.Inv

/-- The pc is even in every configuration, and a multiple of four without C (R37, R191). -/
theorem pcAligned_iff (s : State) : pcAligned s = true ↔ s.pc.toNat % 2 = 0 ∧ (s.cfg.ext.c = true ∨ s.pc.toNat % 4 = 0) := by
  unfold pcAligned ialignBytes alignedTo
  cases s.cfg.ext.c
  · simp
    omega
  · simp

/-- XLEN bits of a sum of multiples of two or four. -/
theorem lowBits_toNat_mod (x : Xlen) (v : Word) {d : Nat} (hd : d ∣ 4) : (lowBits x v).toNat % d = v.toNat % d := by
  rw [lowBits_toNat, Nat.mod_mod_of_dvd _ (hd.trans (pow_dvd_pow 2 (by cases x <;> decide : 2 ≤ x.bits)))]

/-- The invariant of a state at a new pc of XLEN bits. -/
theorem Keeps.inv_of_pc {s u : State} (h : Keeps s u) (hinv : s.Inv) (n : BitVec 64) {pc : Word}
    (hwidth : lowBits s.xlen pc = pc) (heven : pc.toNat % 2 = 0) (halign : s.cfg.ext.c = true ∨ pc.toNat % 4 = 0) :
    State.Inv { u with pc := pc, instret := n } := by
  obtain ⟨hc, ⟨hx, -, hf⟩, -, hfcsr, hmem, hres⟩ := hinv
  have hcfg := h.cfg
  refine ⟨?_, ⟨h.x hx, ?_, h.f hf⟩, ?_, h.fcsr hfcsr, h.mem hmem, h.reservation hc hres⟩
  · simpa [hcfg] using hc
  · simpa [State.xlen, hcfg] using hwidth
  · rw [pcAligned_iff]
    simpa [hcfg] using ⟨heven, halign⟩

/-- An instruction of four bytes, or one of two bytes that needs C (R36, R191). -/
def LengthOk (i : Instr) (s : State) (len : Nat) : Prop :=
  len = 4 ∨ len = 2 ∧ (extOk s.cfg.ext i = true → s.cfg.ext.c = true)

/-- A 32-bit instruction advances the pc by four, a 16-bit one by two where C is present. -/
theorem Keeps.counted_retire {i : Instr} {s u : State} {len : Nat} (h : Keeps s u) (hlen : LengthOk i s len) :
    Counted i s (u.retire len) where
  cfg := h.cfg
  hart := h.hart
  status := h.status
  cycle := h.cycle
  time := h.time
  instret := congrArg (· + 1) h.instret
  inv hlegal hinv := by
    obtain ⟨hext, -⟩ := legalInstr_iff.mp hlegal
    have hxlen : u.xlen = s.xlen := congrArg Config.xlen h.cfg
    have ⟨_, _, hpc, _⟩ := hinv
    obtain ⟨heven, halign⟩ := (pcAligned_iff s).mp hpc
    refine h.inv_of_pc hinv _ (pc := lowBits u.xlen (u.pc + BitVec.ofNat 64 len)) ?_ ?_ ?_
    · rw [hxlen, lowBits_lowBits]
    · rw [lowBits_toNat_mod _ _ (by decide), h.pc]
      obtain rfl | ⟨rfl, -⟩ := hlen
      · bv_omega
      · bv_omega
    · rcases hlen with rfl | ⟨rfl, hc⟩
      · rw [lowBits_toNat_mod _ _ (by decide), h.pc]
        exact halign.imp_right fun h4 => by bv_omega
      · exact .inl (hc hext)

/-- A jump keeps the pc aligned where its target is even and, without C, passed the check of R811. -/
theorem Keeps.counted_jump {i : Instr} {s u : State} {target : Word} (h : Keeps s u)
    (heven : s.Inv → target.toNat % 2 = 0) (halign : s.cfg.ext.c = true ∨ alignedTo 4 (lowBits s.xlen target) = true) :
    Counted i s (u.jump target) where
  cfg := h.cfg
  hart := h.hart
  status := h.status
  cycle := h.cycle
  time := h.time
  instret := congrArg (· + 1) h.instret
  inv _ hinv := by
    have hxlen : u.xlen = s.xlen := congrArg Config.xlen h.cfg
    refine h.inv_of_pc hinv _ (pc := lowBits u.xlen target) ?_ ?_ ?_
    · rw [hxlen, lowBits_lowBits]
    · rw [lowBits_toNat_mod _ _ (by decide), heven hinv]
    · rw [hxlen]
      exact halign.imp_right beq_iff_eq.mp

/-! ### Traps -/

/-- Clearing the low k bits of a word rounds it down to a multiple of 2 ^ k. -/
theorem and_not_low_toNat (v : Word) {k : Nat} (hk : k ≤ 64) :
    (v &&& ~~~ BitVec.ofNat 64 (2 ^ k - 1)).toNat = v.toNat / 2 ^ k * 2 ^ k := by
  apply Nat.eq_of_testBit_eq
  intro i
  rw [BitVec.testBit_toNat, BitVec.getLsbD_and, BitVec.getLsbD_not, BitVec.getLsbD_ofNat, Nat.testBit_two_pow_sub_one,
    Nat.testBit_mul_two_pow, Nat.testBit_div_two_pow, BitVec.testBit_toNat]
  by_cases hi : i < 64
  · by_cases hki : k ≤ i
    · simp [hi, hki, Nat.not_lt.mpr hki]
    · simp [hi, hki]
      omega
  · have hbit : v.getLsbD (i - k + k) = false := BitVec.getLsbD_of_ge _ _ (by omega)
    simp [BitVec.getLsbD_of_ge v i (by omega), hbit]

theorem clearBit0_toNat (v : Word) : (v &&& ~~~ 1#64).toNat = v.toNat / 2 * 2 := and_not_low_toNat v (k := 1) (by decide)

/-- The pc the environment hands over is brought to a multiple of IALIGN (R37). -/
theorem alignPc_toNat (c : Config) (v : Word) : (alignPc c v).toNat = v.toNat / ialignBytes c * ialignBytes c := by
  unfold alignPc ialignBytes
  split
  · exact clearBit0_toNat v
  · exact and_not_low_toNat v (k := 2) (by decide)

theorem lowBits_eq_self_iff {x : Xlen} {v : Word} : lowBits x v = v ↔ v.toNat < 2 ^ x.bits := by
  rw [← BitVec.toNat_inj, lowBits_toNat]
  exact ⟨fun h => h ▸ Nat.mod_lt _ (Nat.two_pow_pos _), Nat.mod_eq_of_lt⟩

theorem lowBits_alignPc (c : Config) (x : Xlen) (v : Word) :
    lowBits x (alignPc c (lowBits x v)) = alignPc c (lowBits x v) := by
  rw [lowBits_eq_self_iff, alignPc_toNat]
  exact (Nat.div_mul_le_self _ _).trans_lt (lowBits_toNat_lt x v)

/-- The bytes an environment stores, brought into the address space. -/
def EnvEffect.storesIn (e : EnvEffect) (x : Xlen) : List (Nat × Byte) := e.stores.map fun c => (c.1 % 2 ^ x.bits, c.2)

section
variable (s : State) (e : EnvEffect)

@[simp] theorem State.resume_cfg : (s.resume e).cfg = s.cfg := s.storeBytes_cfg _
@[simp] theorem State.resume_hart : (s.resume e).hart = s.hart := s.storeBytes_hart _
@[simp] theorem State.resume_status : (s.resume e).status = s.status := s.storeBytes_status _
@[simp] theorem State.resume_cycle : (s.resume e).cycle = s.cycle := s.storeBytes_cycle _
@[simp] theorem State.resume_time : (s.resume e).time = s.time := s.storeBytes_time _
@[simp] theorem State.resume_hpm : (s.resume e).hpm = s.hpm := s.storeBytes_hpm _
@[simp] theorem State.resume_draws : (s.resume e).draws = s.draws := s.storeBytes_draws _
@[simp] theorem State.resume_pc : (s.resume e).pc = alignPc s.cfg (lowBits s.xlen e.pc) := rfl
@[simp] theorem State.resume_x : (s.resume e).x = e.x.map (lowBits s.xlen) := rfl
@[simp] theorem State.resume_f : (s.resume e).f = e.f.map (lowF s.flen) := rfl
@[simp] theorem State.resume_fcsr : (s.resume e).fcsr = e.fcsr &&& 0xFF#32 := rfl
@[simp] theorem State.resume_instret : (s.resume e).instret = s.instret + BitVec.ofNat 64 e.retired := rfl
@[simp] theorem State.resume_reservation :
    (s.resume e).reservation = if e.keepReservation then s.reservation else none := rfl
@[simp] theorem State.resume_mem : (s.resume e).mem = (s.storeBytes (e.storesIn s.xlen)).mem := rfl
@[simp] theorem State.resume_stale :
    (s.resume e).stale = if e.syncFetch then [] else (s.storeBytes (e.storesIn s.xlen)).stale := rfl
@[simp] theorem State.resume_xlen : (s.resume e).xlen = s.xlen := congrArg Config.xlen (s.resume_cfg e)
@[simp] theorem State.resume_flen : (s.resume e).flen = s.flen :=
  congrArg (fun c : Config => Machine.flen c.ext) (s.resume_cfg e)

theorem State.keeps_storesIn : Keeps s (s.storeBytes (e.storesIn s.xlen)) := by
  refine State.keeps_storeBytes fun c hc => ?_
  obtain ⟨d, -, rfl⟩ := List.mem_map.mp hc
  exact Nat.mod_lt _ (Nat.two_pow_pos _)

end

theorem fcsr_low_byte_toNat (v : BitVec 32) : (v &&& 0xFF#32).toNat = v.toNat % 256 := by
  rw [BitVec.toNat_and]
  exact Nat.and_two_pow_sub_one_eq_mod v.toNat 8

/-- The state an environment hands over is legal: it is cut to the widths, aligned, and its stores are in the address
space. -/
theorem State.resume_inv {s : State} (e : EnvEffect) (h : s.Inv) : (s.resume e).Inv := by
  obtain ⟨hc, -, -, -, hmem, hres⟩ := h
  obtain ⟨hwf, hbelow, hstale⟩ := (s.keeps_storesIn e).mem hmem
  rw [State.storeBytes_xlen] at hbelow hstale
  refine ⟨by simpa using hc, ⟨fun i => by simp, by simpa using lowBits_alignPc s.cfg s.xlen e.pc, fun i => ?_⟩, ?_, ?_,
    ⟨hwf, by simpa using hbelow, ?_⟩, fun r hr => ?_⟩
  · simp [State.flen]
  · simp [pcAligned, alignedTo, alignPc_toNat]
  · rw [State.FcsrOk, State.resume_fcsr, fcsr_low_byte_toNat]
    exact Nat.mod_lt _ (by decide)
  · rw [State.resume_stale, State.resume_xlen]
    split
    · rfl
    · exact hstale
  · rw [State.resume_reservation] at hr
    split at hr
    · exact hres r hr
    · cases hr

/-- Whatever the environment answers, a trap leaves the configuration, the hart and the clocks. -/
theorem State.takeTrap_frame (s : State) (c : Cause) :
    (s.takeTrap c).cfg = s.cfg ∧ (s.takeTrap c).hart = s.hart ∧ (s.takeTrap c).cycle = s.cycle ∧
      (s.takeTrap c).time = s.time := by
  rcases s.takeTrap_cases c with ⟨r, -, h⟩ | ⟨e, -, h⟩
  · simp [h]
  · simp [h]

theorem State.takeTrap_inv {s : State} (c : Cause) (h : s.Inv) : (s.takeTrap c).Inv := by
  rcases s.takeTrap_cases c with ⟨r, -, heq⟩ | ⟨e, -, heq⟩
  · rw [heq]
    exact h
  · rw [heq]
    exact State.resume_inv e h

end Sys2Proof.Machine
end

section
/-!
What every instruction answers: one lemma for each shape of meaning, then one case split over the instructions that says
which shape each has.
-/
namespace Sys2Proof.Machine

/-- An instruction takes the exception its checks name, or it raises none, completes and is counted. -/
def ExecAnswers (i : Instr) (s : State) : Prop :=
  (∀ c, trapOf i s = some c → exec i s = .next (s.takeTrap c)) ∧
    (trapOf i s = none → ∃ t, exec i s = .next t ∧ Counted i s t)

section
variable {i : Instr} {s : State}

theorem lengthOk_four : LengthOk i s 4 := .inl rfl

theorem lengthOk_two (h : extOk s.cfg.ext i = true → s.cfg.ext.c = true) : LengthOk i s 2 := .inr ⟨rfl, h⟩

/-! ### The shapes -/

theorem answers_of_trap {c : Cause} (htrap : trapOf i s = some c) (hexec : exec i s = .next (s.takeTrap c)) :
    ExecAnswers i s := by
  constructor
  · rintro d hd
    obtain rfl : c = d := Option.some.inj (htrap.symm.trans hd)
    exact hexec
  · intro hnone
    cases htrap.symm.trans hnone

theorem answers_of_next {t : State} (htrap : trapOf i s = none) (hexec : exec i s = .next t) (h : Counted i s t) :
    ExecAnswers i s :=
  ⟨fun _ hc => (nomatch htrap.symm.trans hc), fun _ => ⟨t, hexec, h⟩⟩

theorem answers_of_retire {u : State} {len : Nat} (htrap : trapOf i s = none) (hexec : exec i s = .next (u.retire len))
    (h : Keeps s u) (hlen : LengthOk i s len) : ExecAnswers i s :=
  answers_of_next htrap hexec (h.counted_retire hlen)

theorem answers_of_finishX {len : Nat} {rd : RegNum} {v : Word} (htrap : trapOf i s = none)
    (hexec : exec i s = finishX s len rd v) (hlen : LengthOk i s len) : ExecAnswers i s :=
  answers_of_retire htrap hexec (s.keeps_wx rd v) hlen

theorem State.keeps_accrue (s : State) (flags : FpFlags) : Keeps s (s.accrue flags) := s.keeps_setFcsr _ _

theorem counted_finishF (t : Fmt) (rd : RegNum) (r : FpResult) :
    Counted i s (((s.fwrite t rd r.bits).accrue r.flags).retire 4) :=
  ((s.keeps_wf t.width rd (BitVec.ofNat 128 r.bits)).trans (State.keeps_accrue _ _)).counted_retire lengthOk_four

theorem counted_finishFX (rd : RegNum) (v : Word) (flags : FpFlags) :
    Counted i s (((s.wx rd v).accrue flags).retire 4) :=
  ((s.keeps_wx rd v).trans (State.keeps_accrue _ _)).counted_retire lengthOk_four

theorem answers_of_finishF {t : Fmt} {rd : RegNum} {r : FpResult} (htrap : trapOf i s = none)
    (hexec : exec i s = finishF s t rd r) : ExecAnswers i s :=
  answers_of_next htrap hexec (counted_finishF t rd r)

theorem answers_of_finishFX {rd : RegNum} {v : Word} {flags : FpFlags} (htrap : trapOf i s = none)
    (hexec : exec i s = finishFX s rd v flags) : ExecAnswers i s :=
  answers_of_next htrap hexec (counted_finishFX rd v flags)

/-- An instruction with a rounding mode is illegal where the mode stands for nothing (R531). -/
theorem answers_of_withRm {rm : BitVec 3} {k : Rm → Host.Outcome State Fault Refusal} (htrap : trapOf i s = rmTrap s i rm)
    (hexec : exec i s = withRm s i rm k) (hk : ∀ m, ∃ t, k m = .next t ∧ Counted i s t) : ExecAnswers i s := by
  obtain ⟨hraise, hrun⟩ := withRm_eq s i rm k
  refine ⟨fun c hc => hexec.trans (hraise c (htrap.symm.trans hc)), fun hnone => ?_⟩
  obtain ⟨m, -, hm⟩ := hrun (htrap.symm.trans hnone)
  obtain ⟨t, ht, hcount⟩ := hk m
  exact ⟨t, hexec.trans (hm.trans ht), hcount⟩

theorem answers_of_roundF {rm : BitVec 3} {t : Fmt} {rd : RegNum} {r : Rm → FpResult} (htrap : trapOf i s = rmTrap s i rm)
    (hexec : exec i s = withRm s i rm fun m => finishF s t rd (r m)) : ExecAnswers i s :=
  answers_of_withRm htrap hexec fun m => ⟨_, rfl, counted_finishF t rd (r m)⟩

theorem answers_of_roundFX {rm : BitVec 3} {rd : RegNum} {v : Rm → Word} {flags : Rm → FpFlags}
    (htrap : trapOf i s = rmTrap s i rm)
    (hexec : exec i s = withRm s i rm fun m => finishFX s rd (v m) (flags m)) : ExecAnswers i s :=
  answers_of_withRm htrap hexec fun m => ⟨_, rfl, counted_finishFX rd (v m) (flags m)⟩

/-- An access that reads takes the exception of its checks, or reads (R100). -/
theorem answers_of_loadThen {k : Access} {n : Nat} {a b : Word} {f : Nat → State → State}
    (htrap : trapOf i s = accessCheck s k n b) (hab : b = a) (hexec : exec i s = loadThen s k n a f)
    (hf : ∀ v, accessCheck s k n a = none → Counted i s (f v (s.noteIo .read n a v))) : ExecAnswers i s := by
  subst hab
  obtain ⟨c, hcheck, hraise⟩ | ⟨hcheck, hrun⟩ := loadThen_cases s k n b f
  · exact answers_of_trap (htrap.trans hcheck) (hexec.trans hraise)
  · exact answers_of_next (htrap.trans hcheck) (hexec.trans hrun) (hf _ hcheck)

theorem answers_of_loadX {len n : Nat} {rd : RegNum} {a b : Word} {w : Nat → Word}
    (htrap : trapOf i s = accessCheck s .load n b) (hab : b = a)
    (hexec : exec i s = loadThen s .load n a fun v t => (t.wx rd (w v)).retire len) (hlen : LengthOk i s len) :
    ExecAnswers i s :=
  answers_of_loadThen htrap hab hexec fun _ _ => ((s.keeps_noteIo ..).trans (State.keeps_wx ..)).counted_retire hlen

theorem answers_of_loadF {len n : Nat} {rd : RegNum} {a b : Word} (htrap : trapOf i s = accessCheck s .load n b)
    (hab : b = a) (hexec : exec i s = loadF s len n rd a) (hlen : LengthOk i s len) : ExecAnswers i s :=
  answers_of_loadThen htrap hab hexec fun _ _ => ((s.keeps_noteIo ..).trans (State.keeps_wf ..)).counted_retire hlen

/-- An LR that passes its checks is aligned, so its reservation holds what it read (R433, R438). -/
theorem answers_of_loadReserved {n : Nat} {rd : RegNum} {a b : Word} (htrap : trapOf i s = accessCheck s .lr n b)
    (hab : b = a) (hexec : exec i s = loadReserved s n rd a) (hn : n ∣ 8) : ExecAnswers i s :=
  answers_of_loadThen htrap hab hexec fun _ hcheck =>
    (((s.keeps_noteIo ..).trans (State.keeps_wx ..)).trans
      (State.keeps_reserve hn (aligned_of_accessCheck_lr s n a hcheck))).counted_retire lengthOk_four

theorem answers_of_atomicOp {op : AmoOp} {n : Nat} {rd rs2 : RegNum} {a b : Word}
    (htrap : trapOf i s = accessCheck s (.amo op) n b) (hab : b = a) (hexec : exec i s = atomicOp s op n rd rs2 a) :
    ExecAnswers i s :=
  answers_of_loadThen htrap hab hexec fun _ _ =>
    (((s.keeps_noteIo ..).trans (State.keeps_memWrite ..)).trans (State.keeps_wx ..)).counted_retire lengthOk_four

theorem answers_of_storeThen {len n v : Nat} {a b : Word} (htrap : trapOf i s = accessCheck s .store n b) (hab : b = a)
    (hexec : exec i s = storeThen s n a v fun t => t.retire len) (hlen : LengthOk i s len) : ExecAnswers i s := by
  subst hab
  obtain ⟨c, hcheck, hraise⟩ | ⟨hcheck, hrun⟩ := storeThen_cases s n b v fun t => t.retire len
  · exact answers_of_trap (htrap.trans hcheck) (hexec.trans hraise)
  · exact answers_of_retire (htrap.trans hcheck) (hexec.trans hrun) (s.keeps_memWrite n b v) hlen

/-- An SC traps, stores, or does not store; it ends the reservation in the two cases in which it completes (R436). -/
theorem answers_of_storeConditional {n : Nat} {rd rs2 : RegNum} {a b : Word}
    (htrap : trapOf i s = accessCheck s .sc n b) (hab : b = a) (hexec : exec i s = storeConditional s n rd rs2 a) :
    ExecAnswers i s := by
  subst hab
  obtain ⟨c, hcheck, hraise⟩ | ⟨hcheck, -, hrun⟩ | ⟨hcheck, -, hrun⟩ := storeConditional_cases s n rd rs2 b
  · exact answers_of_trap (htrap.trans hcheck) (hexec.trans hraise)
  · exact answers_of_retire (htrap.trans hcheck) (hexec.trans hrun)
      (((s.keeps_memWrite ..).trans (State.keeps_wx ..)).trans (State.keeps_dropReservation _)) lengthOk_four
  · exact answers_of_retire (htrap.trans hcheck) (hexec.trans hrun)
      ((s.keeps_wx ..).trans (State.keeps_dropReservation _)) lengthOk_four

theorem answers_of_csrAccess {rd : RegNum} {csr : BitVec 12} {reads writes : Bool} {new : Word → Word}
    (hmem : memAccess i = none) (huse : csrUse i = some ⟨csr, reads, writes⟩)
    (hexec : exec i s = csrAccess s i rd csr reads writes new) : ExecAnswers i s := by
  have htrap : trapOf i s = csrTrap s i ⟨csr, reads, writes⟩ := by simp [trapOf, hmem, huse]
  refine ⟨fun c hc => hexec.trans (csrAccess_of_trap rd new (htrap.symm.trans hc)), fun hnone => ?_⟩
  obtain ⟨hbad, -⟩ | ⟨c, -, -, hrun⟩ := csrAccess_cases s i rd csr reads writes new
  · exfalso
    rw [htrap] at hnone
    obtain hnone' | ⟨c, hat, hw, hro⟩ := hbad
    · simp [csrTrap, hnone'] at hnone
    · simp [csrTrap, hat, hw, hro] at hnone
  · have hwrite (v : Word) : Keeps s (if writes then s.csrWrite c v else s) := by
      split
      · exact s.keeps_csrWrite c v
      · exact .refl s
    refine ⟨_, hexec.trans hrun, Keeps.counted_retire ?_ lengthOk_four⟩
    split
    · exact (hwrite _).trans (State.keeps_wx ..)
    · exact hwrite _

/-- A jump to an even target, whatever it links (R811). -/
theorem answers_of_jumpOrRaise {u : State} {a b : Word} (htrap : trapOf i s = targetTrap s b) (hab : b = a)
    (hexec : exec i s = jumpOrRaise s u a) (hkeeps : Keeps s u) (heven : s.Inv → a.toNat % 2 = 0) : ExecAnswers i s := by
  subst hab
  obtain ⟨hc, hoff, hraise⟩ | ⟨hon, hrun⟩ := jumpOrRaise_cases s u b
  · exact answers_of_trap (htrap.trans (by simp [targetTrap, hc, hoff])) (hexec.trans hraise)
  · refine answers_of_next (htrap.trans ?_) (hexec.trans hrun) (hkeeps.counted_jump heven hon)
    obtain hon | hon := hon
    · simp [targetTrap, hon]
    · simp [targetTrap, hon]

theorem answers_of_linkAndJump {len : Nat} {rd : RegNum} {a b : Word} (htrap : trapOf i s = targetTrap s b) (hab : b = a)
    (hexec : exec i s = linkAndJump s len rd a) (heven : s.Inv → a.toNat % 2 = 0) : ExecAnswers i s :=
  answers_of_jumpOrRaise htrap hab hexec (s.keeps_wx ..) heven

/-- A branch that is not taken is an instruction like others; a taken one is a jump without a link (R285). -/
theorem answers_of_branchIf {len : Nat} {taken : Bool} {off imm : Word}
    (htrap : trapOf i s = if taken then targetTrap s (s.pc + imm) else none) (himm : imm = off)
    (hexec : exec i s = branchIf s len taken off) (hlen : LengthOk i s len)
    (heven : s.Inv → (s.pc + off).toNat % 2 = 0) : ExecAnswers i s := by
  subst himm
  obtain ⟨rfl, hrun⟩ | ⟨rfl, hrun⟩ := branchIf_cases s len taken imm
  · exact answers_of_retire htrap (hexec.trans hrun) (.refl s) hlen
  · exact answers_of_jumpOrRaise htrap rfl (hexec.trans hrun) (.refl s) heven

/-! ### The CSR instructions as their common execution (R482) -/

theorem exec_csrrw (s : State) (rd : RegNum) (csr : BitVec 12) (rs1 : BitVec 5) :
    exec (.csrrw rd csr rs1) s =
      csrAccess s (.csrrw rd csr rs1) rd csr (rd != 0) true fun _ => s.rx rs1 :=
  (rfl : execCsrrw rd csr rs1 s = _)

theorem exec_csrrs (s : State) (rd : RegNum) (csr : BitVec 12) (rs1 : BitVec 5) :
    exec (.csrrs rd csr rs1) s =
      csrAccess s (.csrrs rd csr rs1) rd csr true (rs1 != 0) fun old => old ||| s.rx rs1 :=
  (rfl : execCsrrs rd csr rs1 s = _)

theorem exec_csrrc (s : State) (rd : RegNum) (csr : BitVec 12) (rs1 : BitVec 5) :
    exec (.csrrc rd csr rs1) s =
      csrAccess s (.csrrc rd csr rs1) rd csr true (rs1 != 0) fun old => old &&& ~~~ s.rx rs1 :=
  (rfl : execCsrrc rd csr rs1 s = _)

theorem exec_csrrwi (s : State) (rd : RegNum) (csr : BitVec 12) (uimm : BitVec 5) :
    exec (.csrrwi rd csr uimm) s =
      csrAccess s (.csrrwi rd csr uimm) rd csr (rd != 0) true fun _ => uimm.setWidth 64 :=
  (rfl : execCsrrwi rd csr uimm s = _)

theorem exec_csrrsi (s : State) (rd : RegNum) (csr : BitVec 12) (uimm : BitVec 5) :
    exec (.csrrsi rd csr uimm) s =
      csrAccess s (.csrrsi rd csr uimm) rd csr true (uimm != 0) fun old => old ||| uimm.setWidth 64 :=
  (rfl : execCsrrsi rd csr uimm s = _)

theorem exec_csrrci (s : State) (rd : RegNum) (csr : BitVec 12) (uimm : BitVec 5) :
    exec (.csrrci rd csr uimm) s =
      csrAccess s (.csrrci rd csr uimm) rd csr true (uimm != 0) fun old => old &&& ~~~ uimm.setWidth 64 :=
  (rfl : execCsrrci rd csr uimm s = _)

/-! ### Targets are even, and the operands of compressed instructions are those of their expansions -/

theorem signExtend_append_zero_toNat_mod {w : Nat} (off : BitVec w) : ((off ++ 0#1).signExtend 64).toNat % 2 = 0 := by
  have hbit : ((off ++ 0#1).signExtend 64).getLsbD 0 = false := by
    simp [BitVec.getElem_signExtend, BitVec.getElem_append]
  simpa [BitVec.getLsbD, Nat.testBit_zero] using hbit

/-- The pc plus a doubled offset is even where the pc is. -/
theorem State.Inv.target_even {w : Nat} (off : BitVec w) (h : s.Inv) :
    (s.pc + (off ++ 0#1).signExtend 64).toNat % 2 = 0 := by
  obtain ⟨-, -, hpc, -⟩ := h
  obtain ⟨heven, -⟩ := (pcAligned_iff s).mp hpc
  have hoff := signExtend_append_zero_toNat_mod off
  rw [BitVec.toNat_add]
  omega

theorem jalrTarget_even (s : State) (rs1 : RegNum) (off : Word) : (jalrTarget s rs1 off).toNat % 2 = 0 := by
  rw [jalrTarget, clearBit0_toNat]
  exact Nat.mul_mod_left _ _

/-- The address of an atomic instruction is that of a zero offset. -/
theorem State.address_zero (s : State) (rs1 : RegNum) : s.address rs1 (immValue 0) = s.rx rs1 := by
  have : immValue 0 = 0#64 := rfl
  rw [State.address, this, BitVec.add_zero, State.lowBits_rx]

theorem State.address_scaled12 (s : State) (base : RegNum) {k w : Nat} (off : BitVec w) (hw : w + k ≤ 11) :
    s.address base (immValue (scaled12 k off)) = s.address base (scaledOffset k off) := by
  rw [immValue_scaled12]
  calc off.toNat * 2 ^ k < 2 ^ w * 2 ^ k := Nat.mul_lt_mul_of_pos_right off.isLt (Nat.two_pow_pos k)
    _ = 2 ^ (w + k) := (pow_add 2 w k).symm
    _ ≤ 2 ^ 11 := Nat.pow_le_pow_right (by decide) hw

end

/-! ### Every instruction -/

/-- The shape of each instruction's meaning. -/
theorem exec_answers (i : Instr) (s : State) : ExecAnswers i s := by
  cases i with
  | lui | auipc | addi | slti | sltiu | xori | ori | andi | slli | srli | srai | add | sub | sll | slt | sltu | xor |
  srl | sra | or | and | addiw | slliw | srliw | sraiw | addw | subw | sllw | srlw | sraw | mul | mulh | mulhsu |
  mulhu | div | divu | rem | remu | mulw | divw | divuw | remw | remuw | fclassS | fclassD | fclassQ | fmvXW | fmvXD
  =>
    exact answers_of_finishX rfl rfl lengthOk_four
  | jal =>
    exact answers_of_linkAndJump rfl rfl rfl fun h => h.target_even _
  | jalr =>
    exact answers_of_linkAndJump rfl rfl rfl fun _ => jalrTarget_even ..
  | beq | bne | blt | bge | bltu | bgeu =>
    exact answers_of_branchIf rfl rfl rfl lengthOk_four fun h => h.target_even _
  | lb | lh | lw | ld | lbu | lhu | lwu =>
    exact answers_of_loadX rfl rfl rfl lengthOk_four
  | sb | sh | sw | sd | fsw | fsd | fsq =>
    exact answers_of_storeThen rfl rfl rfl lengthOk_four
  | fenceTso | fence =>
    exact answers_of_retire rfl rfl (.refl s) lengthOk_four
  | fenceI =>
    exact answers_of_retire rfl rfl s.keeps_syncFetch lengthOk_four
  | ecall | ebreak | cEbreak | cLq | cSq | cLqsp | cSqsp =>
    exact answers_of_trap rfl rfl
  | csrrw =>
    exact answers_of_csrAccess rfl rfl (exec_csrrw ..)
  | csrrs =>
    exact answers_of_csrAccess rfl rfl (exec_csrrs ..)
  | csrrc =>
    exact answers_of_csrAccess rfl rfl (exec_csrrc ..)
  | csrrwi =>
    exact answers_of_csrAccess rfl rfl (exec_csrrwi ..)
  | csrrsi =>
    exact answers_of_csrAccess rfl rfl (exec_csrrsi ..)
  | csrrci =>
    exact answers_of_csrAccess rfl rfl (exec_csrrci ..)
  | lrW =>
    exact answers_of_loadReserved (n := 4) rfl (s.address_zero _) rfl (by decide)
  | lrD =>
    exact answers_of_loadReserved (n := 8) rfl (s.address_zero _) rfl (by decide)
  | scW | scD =>
    exact answers_of_storeConditional rfl (s.address_zero _) rfl
  | amoswapW | amoaddW | amoxorW | amoandW | amoorW | amominW | amomaxW | amominuW | amomaxuW | amoswapD | amoaddD |
  amoxorD | amoandD | amoorD | amominD | amomaxD | amominuD | amomaxuD =>
    exact answers_of_atomicOp rfl (s.address_zero _) rfl
  | flw | fld | flq =>
    exact answers_of_loadF rfl rfl rfl lengthOk_four
  | faddS | fsubS | fmulS | fdivS | faddD | fsubD | fmulD | fdivD | faddQ | fsubQ | fmulQ | fdivQ | fsqrtS | fsqrtD |
  fsqrtQ | fmaddS | fmsubS | fnmsubS | fnmaddS | fmaddD | fmsubD | fnmsubD | fnmaddD | fmaddQ | fmsubQ | fnmsubQ |
  fnmaddQ | fcvtSW | fcvtSWu | fcvtSL | fcvtSLu | fcvtDW | fcvtDWu | fcvtDL | fcvtDLu | fcvtQW | fcvtQWu | fcvtQL |
  fcvtQLu | fcvtSD | fcvtDS | fcvtSQ | fcvtQS | fcvtDQ | fcvtQD =>
    exact answers_of_roundF rfl rfl
  | fcvtWS | fcvtWuS | fcvtLS | fcvtLuS | fcvtWD | fcvtWuD | fcvtLD | fcvtLuD | fcvtWQ | fcvtWuQ | fcvtLQ | fcvtLuQ =>
    exact answers_of_roundFX rfl rfl
  | fsgnjS | fsgnjnS | fsgnjxS | fsgnjD | fsgnjnD | fsgnjxD | fsgnjQ | fsgnjnQ | fsgnjxQ | fmvWX | fmvDX =>
    exact answers_of_retire rfl rfl (s.keeps_wf ..) lengthOk_four
  | fminS | fmaxS | fminD | fmaxD | fminQ | fmaxQ =>
    exact answers_of_finishF rfl rfl
  | feqS | fltS | fleS | feqD | fltD | fleD | feqQ | fltQ | fleQ =>
    exact answers_of_finishFX rfl rfl
  | cAddi4spn | cAddi | cAddiw | cLi | cAddi16sp | cLui | cSrli | cSrai | cAndi | cSub | cXor | cOr | cAnd | cSubw |
  cAddw | cSlli | cMv | cAdd =>
    exact answers_of_finishX rfl rfl (lengthOk_two id)
  | cNop =>
    exact answers_of_retire rfl rfl (.refl s) (lengthOk_two id)
  | cLw | cLd | cLwsp | cLdsp =>
    exact answers_of_loadX rfl (s.address_scaled12 _ _ (by decide)) rfl (lengthOk_two id)
  | cFld | cFlw | cFldsp | cFlwsp =>
    exact answers_of_loadF rfl (s.address_scaled12 _ _ (by decide)) rfl (lengthOk_two Bool.and_elim_left)
  | cSw | cSd | cSwsp | cSdsp =>
    exact answers_of_storeThen rfl (s.address_scaled12 _ _ (by decide)) rfl (lengthOk_two id)
  | cFsd | cFsw | cFsdsp | cFswsp =>
    exact answers_of_storeThen rfl (s.address_scaled12 _ _ (by decide)) rfl (lengthOk_two Bool.and_elim_left)
  | cJ | cJal =>
    exact answers_of_linkAndJump rfl (congrArg (s.pc + ·) (jumpOffset_signExtend _)) rfl fun h => h.target_even _
  | cJr | cJalr =>
    exact answers_of_linkAndJump rfl rfl rfl fun _ => jalrTarget_even ..
  | cBeqz | cBnez =>
    exact answers_of_branchIf rfl (branchOffset_signExtend _) rfl (lengthOk_two id) fun h => h.target_even _

/-- Settles O5: completing and counting includes the status and `instret`. -/
theorem everyInstructionAnswersNext : Obligations.EveryInstructionAnswersNext := by
  intro i s
  obtain ⟨htrap, hnone⟩ := exec_answers i s
  refine ⟨htrap, fun h => ?_⟩
  obtain ⟨t, hexec, hcount⟩ := hnone h
  exact ⟨t, hexec, hcount.status, hcount.instret⟩

/-! ### The step -/

/-- What the execution part of a step leaves: a trap taken, or an instruction that exists, completed and counted. -/
theorem fetchAndExec_answers (s : State) :
    (∃ c, trapOfFetched s s.fetch = some c ∧ fetchAndExec s = .next (s.takeTrap c)) ∨
      ∃ i t, legalInstr s.cfg i = true ∧ fetchAndExec s = .next t ∧ Counted i s t := by
  obtain ⟨c, hfetch, hrun⟩ | ⟨code, hfetch, hdec, hrun⟩ | ⟨code, i, hfetch, hdec, hrun⟩ := fetchAndExec_cases s
  · exact .inl ⟨c, by simp [trapOfFetched, hfetch], hrun⟩
  · exact .inl ⟨_, by simp [trapOfFetched, hfetch, hdec], hrun⟩
  · obtain ⟨hraise, hdone⟩ := exec_answers i s
    cases htrap : trapOf i s with
    | some c => exact .inl ⟨c, by simp [trapOfFetched, hfetch, hdec, htrap], hrun.trans (hraise c htrap)⟩
    | none =>
      obtain ⟨t, hexec, hcount⟩ := hdone htrap
      exact .inr ⟨i, t, legal_of_decode hdec, hrun.trans hexec, hcount⟩

/-- A step that answers a next state ran a running machine of an admitted configuration. -/
theorem step_eq_next {s t : State} (h : step s = .next t) :
    s.status = .running ∧ ∃ u, fetchAndExec s = .next u ∧ t = u.tick := by
  obtain ⟨-, hs⟩ | ⟨-, -, hs⟩ | ⟨-, -, -, hs⟩ | ⟨hrun, -, -, hs⟩ := step_cases s
  · cases hs.symm.trans h
  · cases hs.symm.trans h
  · cases hs.symm.trans h
  · refine ⟨hrun, ?_⟩
    obtain ⟨c, -, hexec⟩ | ⟨i, u, -, hexec, -⟩ := fetchAndExec_answers s
    · rw [hexec] at hs
      exact ⟨_, hexec, (Host.Outcome.next.inj (hs.symm.trans h)).symm⟩
    · rw [hexec] at hs
      exact ⟨_, hexec, (Host.Outcome.next.inj (hs.symm.trans h)).symm⟩

/-- Time changes no part of the invariant. -/
theorem State.tick_inv {s : State} (h : s.Inv) : s.tick.Inv := h

/-- Settles O10: a trap and a completed instruction keep the invariant, and so does the passing of time. -/
theorem invariantKept : Obligations.InvariantKept := by
  intro s t hinv hstep
  obtain ⟨-, u, hexec, rfl⟩ := step_eq_next hstep
  apply State.tick_inv
  obtain ⟨c, -, hrun⟩ | ⟨i, v, hlegal, hrun, hcount⟩ := fetchAndExec_answers s
  · obtain rfl : s.takeTrap c = u := Host.Outcome.next.inj (hrun.symm.trans hexec)
    exact State.takeTrap_inv c hinv
  · obtain rfl : v = u := Host.Outcome.next.inj (hrun.symm.trans hexec)
    exact hcount.inv hlegal hinv

/-- Settles O13: traps and instructions leave these parts, and a clock advances by at least nothing. -/
theorem configurationFixedClocksNeverDecrease : Obligations.ConfigurationFixedClocksNeverDecrease := by
  intro s t hstep
  obtain ⟨-, u, hexec, rfl⟩ := step_eq_next hstep
  have hframe : u.cfg = s.cfg ∧ u.hart = s.hart ∧ u.cycle = s.cycle ∧ u.time = s.time := by
    obtain ⟨c, -, hrun⟩ | ⟨i, v, -, hrun, hcount⟩ := fetchAndExec_answers s
    · obtain rfl : s.takeTrap c = u := Host.Outcome.next.inj (hrun.symm.trans hexec)
      exact s.takeTrap_frame c
    · obtain rfl : v = u := Host.Outcome.next.inj (hrun.symm.trans hexec)
      exact ⟨hcount.cfg, hcount.hart, hcount.cycle, hcount.time⟩
  obtain ⟨hcfg, hhart, hcycle, htime⟩ := hframe
  exact ⟨hcfg, hhart, hcycle ▸ le_clockAfter _ _, htime ▸ le_clockAfter _ _⟩

/-- A trap stops the machine only where the environment makes it fatal, with the environment's report. -/
theorem State.takeTrap_not_running {s : State} {c : Cause} (hrun : s.status = .running)
    (h : (s.takeTrap c).status ≠ .running) :
    ∃ r, environmentAnswer s (s.trapRecord c) = .terminate r ∧ (s.takeTrap c).status = .terminated r := by
  obtain ⟨r, hanswer, heq⟩ | ⟨e, -, heq⟩ := s.takeTrap_cases c
  · exact ⟨r, hanswer, by rw [heq]; rfl⟩
  · rw [heq, State.resume_status] at h
    exact absurd hrun h

/-- What was fetched, where it raises an exception (R801, R825). -/
theorem trapOfFetched_eq_some {s : State} {f : Except Cause Code} {c : Cause} (h : trapOfFetched s f = some c) :
    f = .error c ∨ ∃ code, f = .ok code ∧ ((decode s.cfg code = none ∧ c = .illegalInstruction code) ∨
      ∃ i, decode s.cfg code = some i ∧ trapOf i s = some c) := by
  cases f with
  | error d => exact .inl (congrArg Except.error (Option.some.inj h))
  | ok code =>
    refine .inr ⟨code, rfl, ?_⟩
    cases hdec : decode s.cfg code with
    | none => exact .inl ⟨rfl, by simpa [trapOfFetched, hdec, eq_comm] using h⟩
    | some i => exact .inr ⟨i, rfl, by simpa [trapOfFetched, hdec] using h⟩

/-- Settles O14: a completed instruction leaves the hart running, so only a trap can have stopped it. -/
theorem onlyTrapsTerminate : Obligations.OnlyTrapsTerminate := by
  refine ⟨fun s t hstep hstop => ?_, fun i s t hrunning hexec hstop => ?_, fun s r hs => ?_⟩
  · obtain ⟨hrunning, u, hexec, rfl⟩ := step_eq_next hstep
    obtain ⟨c, htrap, hrun⟩ | ⟨i, v, -, hrun, hcount⟩ := fetchAndExec_answers s
    · obtain rfl : s.takeTrap c = u := Host.Outcome.next.inj (hrun.symm.trans hexec)
      obtain ⟨r, hanswer, hstatus⟩ := State.takeTrap_not_running hrunning hstop
      exact ⟨c, r, hanswer, rfl, hstatus, trapOfFetched_eq_some htrap⟩
    · obtain rfl : v = u := Host.Outcome.next.inj (hrun.symm.trans hexec)
      exact absurd (hcount.status.trans hrunning) hstop
  · obtain ⟨hraise, hdone⟩ := exec_answers i s
    cases htrap : trapOf i s with
    | some c =>
      obtain rfl : s.takeTrap c = t := Host.Outcome.next.inj ((hraise c htrap).symm.trans hexec)
      obtain ⟨r, hanswer, hstatus⟩ := State.takeTrap_not_running hrunning hstop
      exact ⟨c, r, rfl, hanswer, hstatus⟩
    | none =>
      obtain ⟨v, hnext, hcount⟩ := hdone htrap
      obtain rfl : v = t := Host.Outcome.next.inj (hnext.symm.trans hexec)
      exact absurd (hcount.status.trans hrunning) hstop
  · simp [step, hs]

end Sys2Proof.Machine
end

section
/-!
The integer computational instructions as numbers: each operation on words is an operation on integers modulo 2 ^ 64, and
so modulo 2 ^ XLEN and 2 ^ 32.
-/
namespace Sys2Proof.Machine

/-! ### Operations on words modulo 2 ^ 64 (R30) -/

theorem two_pow_xlen_dvd (x : Xlen) : (2 : Int) ^ x.bits ∣ 2 ^ 64 := by cases x <;> decide

theorem two_pow_32_dvd_xlen (x : Xlen) : (2 : Int) ^ 32 ∣ 2 ^ x.bits := by cases x <;> decide

theorem bmod_eq_of_modEq {n : Nat} {a b : Int} (h : a ≡ b [ZMOD n]) : a.bmod n = b.bmod n := by
  rw [← Int.emod_bmod, h, Int.emod_bmod]

theorem toNat_modEq_toInt (w : Word) : (w.toNat : Int) ≡ w.toInt [ZMOD 2 ^ 64] :=
  (toInt_emod_xlen .rv64 w).symm

theorem toNat_add_modEq (a b : Word) : ((a + b).toNat : Int) ≡ a.toNat + b.toNat [ZMOD 2 ^ 64] := by
  rw [BitVec.toNat_add]
  exact_mod_cast Nat.mod_modEq _ _

theorem toNat_sub_modEq (a b : Word) : ((a - b).toNat : Int) ≡ a.toNat - b.toNat [ZMOD 2 ^ 64] := by
  have h := toNat_add_modEq (a - b) b
  rw [BitVec.sub_add_cancel] at h
  simpa using (h.sub_right (b.toNat : Int)).symm

theorem toNat_mul_modEq (a b : Word) : ((a * b).toNat : Int) ≡ a.toNat * b.toNat [ZMOD 2 ^ 64] := by
  rw [BitVec.toNat_mul]
  exact_mod_cast Nat.mod_modEq _ _

theorem toNat_shiftLeft_modEq (a : Word) (n : Nat) : ((a <<< n).toNat : Int) ≡ a.toNat * 2 ^ n [ZMOD 2 ^ 64] := by
  rw [BitVec.toNat_shiftLeft, Nat.shiftLeft_eq]
  exact_mod_cast Nat.mod_modEq _ _

theorem toNat_shiftRight_cast (a : Word) (n : Nat) : ((a >>> n).toNat : Int) = a.toNat / 2 ^ n := by
  rw [BitVec.toNat_ushiftRight, Nat.shiftRight_eq_div_pow]
  norm_cast

theorem immValue_modEq (imm : BitVec 12) : ((immValue imm).toNat : Int) ≡ imm.toInt [ZMOD 2 ^ 64] := by
  have himm : (immValue imm).toInt = imm.toInt := BitVec.toInt_signExtend_of_le (by decide)
  exact himm ▸ toNat_modEq_toInt _

theorem upperValue_modEq (imm : BitVec 20) : ((upperValue imm).toNat : Int) ≡ imm.toInt * 4096 [ZMOD 2 ^ 64] := by
  have himm : (upperValue imm).toInt = imm.toInt * 4096 := by
    rw [upperValue, BitVec.toInt_signExtend_of_le (by decide), BitVec.toInt_append_zero, mul_comm]
    rfl
  exact himm ▸ toNat_modEq_toInt _

/-- An address or a comparison sees a number by its low XLEN bits (R80). -/
theorem State.target_eq_lowBits (s : State) {w : Word} {v : Int} (h : (w.toNat : Int) ≡ v [ZMOD 2 ^ 64]) :
    s.target v = (lowBits s.xlen w).toNat := by
  have hx : (w.toNat : Int) % 2 ^ s.xlen.bits = v % 2 ^ s.xlen.bits := h.of_dvd (two_pow_xlen_dvd _)
  rw [State.target, ← hx, lowBits_toNat]
  norm_cast

/-- A signed comparison of words is one of their numbers of XLEN bits. -/
theorem ltS_eq_decide (x : Xlen) (a b : Word) :
    ltS x a b = decide ((a.toNat : Int).bmod (2 ^ x.bits) < (b.toNat : Int).bmod (2 ^ x.bits)) := by
  rw [ltS, BitVec.slt_eq_decide, signBits_toInt, signBits_toInt]

theorem boolWord_toNat (b : Bool) : ((boolWord b).toNat : Int) = if b then 1 else 0 := by cases b <;> rfl

/-- A number of 12 bits is its own at either XLEN. -/
theorem immValue_bmod (x : Xlen) (imm : BitVec 12) : ((immValue imm).toNat : Int).bmod (2 ^ x.bits) = imm.toInt := by
  have h : ((immValue imm).toNat : Int) ≡ imm.toInt [ZMOD (2 ^ x.bits : Nat)] := by
    exact_mod_cast (immValue_modEq imm).of_dvd (two_pow_xlen_dvd x)
  rw [bmod_eq_of_modEq h]
  have hlow := BitVec.le_toInt imm
  have hhigh := BitVec.toInt_lt (x := imm)
  cases x with
  | rv32 => exact Int.bmod_eq_of_le (by simp [Xlen.bits]; omega) (by simp [Xlen.bits]; omega)
  | rv64 => exact Int.bmod_eq_of_le (by simp [Xlen.bits]; omega) (by simp [Xlen.bits]; omega)

/-- The W forms' result is the number wrapped to 32 bits, sign-extended (R360). -/
theorem sext32_modEq (x : Xlen) {w : Word} {v : Int} (h : (w.toNat : Int) ≡ v [ZMOD 2 ^ 64]) :
    ((sext32 w).toNat : Int) ≡ v.bmod (2 ^ 32) [ZMOD 2 ^ x.bits] := by
  have h32 : (w.toNat : Int) ≡ v [ZMOD (2 ^ 32 : Nat)] := h.of_dvd (by decide)
  have hint : (sext32 w).toInt = v.bmod (2 ^ 32) := by rw [sext32_toInt, bmod_eq_of_modEq h32]
  exact hint ▸ (toNat_modEq_toInt _).of_dvd (two_pow_xlen_dvd x)

theorem sraX_toInt (x : Xlen) (v : Word) (n : Nat) : (sraX x v n).toInt = (v.toNat : Int).bmod (2 ^ x.bits) / 2 ^ n := by
  rw [sraX, BitVec.toInt_sshiftRight, signBits_toInt, Int.shiftRight_eq_div_pow]
  norm_cast

theorem sllW_toInt (v : Word) (n : Nat) : (sllW v n).toInt = (((v.toNat % 2 ^ 32 : Nat) : Int) * 2 ^ n).bmod (2 ^ 32) := by
  rw [sllW, BitVec.toInt_signExtend_of_le (by decide), BitVec.toInt_eq_toNat_bmod, BitVec.toNat_shiftLeft,
    Nat.shiftLeft_eq, BitVec.toNat_setWidth, Int.natCast_emod, Int.emod_bmod]
  norm_cast

theorem srlW_toInt (v : Word) (n : Nat) : (srlW v n).toInt = (((v.toNat % 2 ^ 32 : Nat) : Int) / 2 ^ n).bmod (2 ^ 32) := by
  rw [srlW, BitVec.toInt_signExtend_of_le (by decide), BitVec.toInt_eq_toNat_bmod, BitVec.toNat_ushiftRight,
    Nat.shiftRight_eq_div_pow, BitVec.toNat_setWidth]
  norm_cast

theorem sraW_toInt (v : Word) (n : Nat) : (sraW v n).toInt = (v.toNat : Int).bmod (2 ^ 32) / 2 ^ n := by
  rw [sraW, BitVec.toInt_signExtend_of_le (by decide), BitVec.toInt_sshiftRight, BitVec.toInt_setWidth,
    Int.shiftRight_eq_div_pow]
  norm_cast

/-! ### Results -/

section
variable {i : Instr} {s : State} {len : Nat} {rd : RegNum} {w : Word} {v : Int}

/-- A result known modulo 2 ^ 64. -/
theorem completes_of_modEq (hi : exec i s = finishX s len rd w) (h : (w.toNat : Int) ≡ v [ZMOD 2 ^ 64]) :
    Completes i s fun t => XResult s t len rd v :=
  completes_of_finishX hi (h.of_dvd (two_pow_xlen_dvd _))

/-- A result known as the word's signed number. -/
theorem completes_of_toInt (hi : exec i s = finishX s len rd w) (h : w.toInt = v) :
    Completes i s fun t => XResult s t len rd v :=
  completes_of_modEq hi (h ▸ toNat_modEq_toInt w)

/-- A comparison's result. -/
theorem completes_of_boolWord {b : Bool} {p : Prop} [Decidable p] (hi : exec i s = finishX s len rd (boolWord b))
    (h : b = true ↔ p) : Completes i s fun t => XResult s t len rd (if p then 1 else 0) := by
  refine completes_of_finishX hi ?_
  simp only [boolWord_toNat, h]

/-- A result is held under any number it equals modulo 2 ^ XLEN. -/
theorem Completes.xResult_congr {u : Int} (h : Completes i s fun t => XResult s t len rd v)
    (hvu : v % 2 ^ s.xlen.bits = u % 2 ^ s.xlen.bits) : Completes i s fun t => XResult s t len rd u := by
  obtain ⟨t, hexec, hholds, hframe⟩ := h
  unfold HoldsX at hholds
  exact ⟨t, hexec, by rwa [hvu] at hholds, hframe⟩

end

/-- A bitwise operation looks at the low XLEN bits of its second operand only, where it keeps each bit in its place. -/
theorem completes_of_bitwise {i : Instr} {s : State} {len : Nat} {rd rs1 : RegNum} {b : Word} {op : Word → Word → Word}
    {nop : Nat → Nat → Nat} (hi : exec i s = finishX s len rd (op (s.rx rs1) b))
    (hop : ∀ a c, (op a c).toNat = nop a.toNat c.toNat)
    (hmod : ∀ a c n, nop a c % 2 ^ n = nop (a % 2 ^ n) (c % 2 ^ n)) :
    Completes i s fun t => XResult s t len rd (nop (s.rx rs1).toNat (lowBits s.xlen b).toNat : Nat) := by
  refine completes_of_finishX hi ?_
  have h : nop (s.rx rs1).toNat b.toNat % 2 ^ s.xlen.bits =
      nop (s.rx rs1).toNat (lowBits s.xlen b).toNat % 2 ^ s.xlen.bits := by
    rw [hmod, hmod _ (lowBits s.xlen b).toNat, lowBits_toNat, Nat.mod_mod]
  rw [hop]
  exact_mod_cast h

/-- Settles O20: sums modulo 2 ^ 64, comparisons of numbers, and bitwise operations with the immediate's XLEN bits. -/
theorem immediateArithmetic : Obligations.ImmediateArithmetic := by
  intro s rd rs1 imm
  have htarget : s.target imm.toInt = (lowBits s.xlen (immValue imm)).toNat := s.target_eq_lowBits (immValue_modEq imm)
  refine ⟨completes_of_modEq rfl ?_, completes_of_boolWord rfl ?_, completes_of_boolWord rfl ?_, ?_, ?_, ?_⟩
  · exact (toNat_add_modEq _ _).trans ((immValue_modEq imm).add_left _)
  · rw [ltS_eq_decide, immValue_bmod, decide_eq_true_iff, State.sval]
  · rw [BitVec.ult, decide_eq_true_iff, htarget, State.uval, Nat.cast_lt]
  · rw [htarget]
    exact completes_of_bitwise rfl (fun _ _ => BitVec.toNat_and ..) fun _ _ _ => Nat.and_mod_two_pow
  · rw [htarget]
    exact completes_of_bitwise rfl (fun _ _ => BitVec.toNat_or ..) fun _ _ _ => Nat.or_mod_two_pow
  · rw [htarget]
    exact completes_of_bitwise rfl (fun _ _ => BitVec.toNat_xor ..) fun _ _ _ => Nat.xor_mod_two_pow

/-- Settles O21. -/
theorem registerArithmetic : Obligations.RegisterArithmetic := by
  intro s rd rs1 rs2
  refine ⟨completes_of_modEq rfl (toNat_add_modEq _ _), completes_of_modEq rfl (toNat_sub_modEq _ _),
    completes_of_boolWord rfl ?_, completes_of_boolWord rfl ?_, ?_, ?_, ?_⟩
  · rw [ltS_eq_decide, decide_eq_true_iff, State.sval, State.sval]
  · rw [BitVec.ult, decide_eq_true_iff, State.uval, State.uval, Nat.cast_lt]
  · exact completes_of_finishX rfl (by rw [BitVec.toNat_and])
  · exact completes_of_finishX rfl (by rw [BitVec.toNat_or])
  · exact completes_of_finishX rfl (by rw [BitVec.toNat_xor])

/-- Settles O22: the shift amount is the field, or rs2 modulo XLEN. -/
theorem shifts : Obligations.Shifts := by
  intro s rd rs1 rs2 shamt n
  refine ⟨?_, ?_, ?_, ?_, ?_, ?_⟩
  · exact completes_of_modEq rfl (toNat_shiftLeft_modEq _ _)
  · exact completes_of_finishX rfl (by rw [toNat_shiftRight_cast, State.uval])
  · exact completes_of_toInt rfl (sraX_toInt _ _ _)
  · exact completes_of_modEq rfl (toNat_shiftLeft_modEq _ n)
  · exact completes_of_finishX rfl (by rw [toNat_shiftRight_cast, State.uval, shiftAmount])
  · exact completes_of_toInt rfl (sraX_toInt _ _ n)

/-- Settles O23. -/
theorem upperImmediates : Obligations.UpperImmediates := by
  intro s rd imm
  refine ⟨completes_of_modEq rfl (upperValue_modEq imm), completes_of_modEq rfl ?_⟩
  exact (toNat_add_modEq _ _).trans ((upperValue_modEq imm).add_left _)

/-- Settles O24: sums and differences wrap to 32 bits, shifts take the low 32 bits of rs1. -/
theorem wordArithmetic : Obligations.WordArithmetic := by
  intro s rd rs1 rs2 imm shamt n
  refine ⟨completes_of_finishX rfl (sext32_modEq _ ?_), ?_, ?_, ?_, completes_of_finishX rfl (sext32_modEq _ ?_),
    completes_of_finishX rfl (sext32_modEq _ ?_), ?_, ?_, ?_⟩
  · exact (toNat_add_modEq _ _).trans ((immValue_modEq imm).add_left _)
  · exact completes_of_toInt rfl (sllW_toInt _ _)
  · exact completes_of_toInt rfl (srlW_toInt _ _)
  · exact completes_of_toInt rfl (sraW_toInt _ _)
  · exact toNat_add_modEq _ _
  · exact toNat_sub_modEq _ _
  · exact completes_of_toInt rfl (sllW_toInt _ n)
  · exact completes_of_toInt rfl (srlW_toInt _ n)
  · exact completes_of_toInt rfl (sraW_toInt _ n)

/-- Settles O25. -/
theorem multiplication : Obligations.Multiplication := by
  intro s rd rs1 rs2
  refine ⟨completes_of_modEq rfl (toNat_mul_modEq _ _), ?_, ?_, ?_⟩
  · rw [← s.sx_toInt, ← s.sx_toInt]
    exact completes_of_finishX rfl (ofInt_toNat_emod_xlen _ _)
  · rw [← s.sx_toInt]
    exact completes_of_finishX rfl (ofInt_toNat_emod_xlen _ _)
  · exact completes_of_finishX rfl (ofInt_toNat_emod_xlen _ _)

end Sys2Proof.Machine
end

section
/-!
Division: the statements' quotients and remainders are the model's four functions, and these satisfy the division equation
in their ranges.
-/
namespace Sys2Proof.Machine

/-! ### The results as the statements write them (R405 to R413) -/

/-- All XLEN bits set is -1 and is the greatest unsigned number. -/
theorem neg_one_emod_two_pow (n : Nat) : (-1 : Int) % 2 ^ n = (2 ^ n - 1) % 2 ^ n := by
  rw [sub_eq_neg_add, Int.add_emod_right]

theorem quotU_eq_ite (a b : Nat) : quotU a b = if (b : Int) = 0 then -1 else (a : Int) / b := by
  unfold quotU
  norm_cast

theorem remU_eq_ite (a b : Nat) : remU a b = if (b : Int) = 0 then (a : Int) else (a : Int) % b := by
  unfold remU
  norm_cast

theorem State.uval_modEq_uval32 (s : State) (r : RegNum) : s.uval r ≡ s.uval32 r [ZMOD (2 ^ 32 : Nat)] := by
  rw [State.uval, State.uval32, Int.natCast_emod]
  exact (Int.mod_modEq _ _).symm

/-- Settles O26. -/
theorem division : Obligations.Division := by
  intro s rd rs1 rs2
  refine ⟨div_completes s rd rs1 rs2, (divu_completes s rd rs1 rs2).xResult_congr ?_, rem_completes s rd rs1 rs2,
    (remu_completes s rd rs1 rs2).xResult_congr ?_⟩
  · rw [quotU_eq_ite, State.uval, State.uval]
    split
    · exact neg_one_emod_two_pow _
    · rfl
  · rw [remU_eq_ite, State.uval, State.uval]

/-- A number in the signed range of n bits is its own wrapping. -/
theorem bmod_two_pow_eq_self {z : Int} {n : Nat} (hn : 0 < n) (hlow : -2 ^ (n - 1) ≤ z) (hhigh : z < 2 ^ (n - 1)) :
    z.bmod (2 ^ n) = z := by
  have hhalf : ((2 ^ n : Nat) : Int) = 2 * 2 ^ (n - 1) := by
    rw [Nat.cast_pow, Nat.cast_ofNat, ← pow_succ', Nat.sub_add_cancel hn]
  exact Int.bmod_eq_of_le (by omega) (by omega)

/-- A signed remainder is no greater in magnitude than its dividend and has its sign, so it stays in the range. -/
theorem remS_range {m a : Int} (b : Int) (hlow : -m ≤ a) (hhigh : a < m) : -m ≤ remS a b ∧ remS a b < m := by
  unfold remS
  split
  · exact ⟨hlow, hhigh⟩
  · have hmag : (a.tmod b).natAbs ≤ a.natAbs := Int.natAbs_tmod a b ▸ Nat.mod_le _ _
    have hnonneg : 0 ≤ a → 0 ≤ a.tmod b := Int.tmod_nonneg b
    have hnonpos : 0 ≤ -a → 0 ≤ -a.tmod b := Int.neg_tmod a b ▸ Int.tmod_nonneg b
    omega

/-- Settles O27. -/
theorem wordMultiplyDivide : Obligations.WordMultiplyDivide := by
  intro s rd rs1 rs2
  have hrem : (remS (s.sval32 rs1) (s.sval32 rs2)).bmod (2 ^ 32) = remS (s.sval32 rs1) (s.sval32 rs2) := by
    obtain ⟨hlow, hhigh⟩ := s.sval32_range rs1
    obtain ⟨hlow', hhigh'⟩ := remS_range (s.sval32 rs2) hlow hhigh
    exact bmod_two_pow_eq_self (by decide) hlow' hhigh'
  refine ⟨?_, (divw_completes s rd rs1 rs2).xResult_congr ?_, (divuw_completes s rd rs1 rs2).xResult_congr ?_,
    (remw_completes s rd rs1 rs2).xResult_congr ?_, (remuw_completes s rd rs1 rs2).xResult_congr ?_⟩
  · have hmod : (s.uval rs1 * s.uval rs2).bmod (2 ^ 32) = (s.uval32 rs1 * s.uval32 rs2).bmod (2 ^ 32) :=
      bmod_eq_of_modEq ((s.uval_modEq_uval32 rs1).mul (s.uval_modEq_uval32 rs2))
    exact hmod ▸ completes_of_finishX rfl (sext32_modEq _ (toNat_mul_modEq _ _))
  · unfold quotS
    split
    · rw [neg_one_bmod_32]
    · rfl
  · rw [quotU_eq_ite, low32, low32, State.uval32, State.uval32]
    split
    · rw [neg_one_bmod_32, all_ones_bmod_32]
    · rfl
  · rw [hrem, remS]
  · rw [remU_eq_ite, low32, low32, State.uval32, State.uval32]

/-! ### The division equation (R405 to R408) -/

theorem mul_quotS_add_remS (a b : Int) : b * quotS a b + remS a b = a := by
  unfold quotS remS
  split
  case isTrue h => simp [h]
  case isFalse => exact Int.mul_tdiv_add_tmod a b

/-- The remainder is smaller than the divisor and has the dividend's sign or is zero. -/
theorem remS_bound_and_sign {a b : Int} (hb : b ≠ 0) :
    |remS a b| < |b| ∧ (remS a b = 0 ∨ (0 < remS a b ↔ 0 < a)) := by
  rw [remS, if_neg hb]
  have hmag : (a.tmod b).natAbs < b.natAbs := Int.natAbs_tmod a b ▸ Nat.mod_lt _ (Int.natAbs_pos.mpr hb)
  refine ⟨by rw [Int.abs_eq_natAbs, Int.abs_eq_natAbs]; exact_mod_cast hmag, ?_⟩
  have hsign := Int.sign_tmod a b
  split at hsign
  · exact .inl (Int.sign_eq_zero_iff_zero.mp hsign)
  · right
    rw [← Int.sign_eq_one_iff_pos, hsign, Int.sign_eq_one_iff_pos]

/-- What a hart of n bits keeps of a signed division: the equation modulo 2 ^ n, and exactly where the quotient fits. -/
theorem signed_division {n : Nat} (hn : 0 < n) {a b q r : Int} (ha : -2 ^ (n - 1) ≤ a ∧ a < 2 ^ (n - 1))
    (hq : q = (quotS a b).bmod (2 ^ n)) (hr : r = (remS a b).bmod (2 ^ n)) :
    (¬ (a = -2 ^ (n - 1) ∧ b = -1) → a = b * q + r) ∧ (b * q + r - a) % 2 ^ n = 0 ∧
      (b ≠ 0 → |r| < |b| ∧ (r = 0 ∨ (0 < r ↔ 0 < a))) := by
  obtain ⟨halow, hahigh⟩ := ha
  obtain ⟨hrlow, hrhigh⟩ := remS_range b halow hahigh
  rw [bmod_two_pow_eq_self hn hrlow hrhigh] at hr
  subst hr
  have heq := mul_quotS_add_remS a b
  refine ⟨fun hfits => ?_, ?_, fun hb => remS_bound_and_sign hb⟩
  · have hrange : -2 ^ (n - 1) ≤ quotS a b ∧ quotS a b < 2 ^ (n - 1) := by
      by_cases hb : b = 0
      · rw [hb, quotS_zero]
        have : (0 : Int) < 2 ^ (n - 1) := by positivity
        omega
      · rw [quotS, if_neg hb]
        by_contra hout
        exact hfits (overflow_of_tdiv_out_of_range ⟨halow, hahigh⟩ hb (by omega))
    rw [hq, bmod_two_pow_eq_self hn hrange.1 hrange.2, heq]
  · have hmod : q ≡ quotS a b [ZMOD 2 ^ n] := by
      rw [hq]
      exact_mod_cast Int.bmod_emod
    have := ((hmod.mul_left b).add_right (remS a b)).trans (congrArg (· % 2 ^ n) heq)
    exact Int.emod_eq_zero_of_dvd this.symm.dvd

theorem mul_quotU_add_remU (a b : Nat) : (a : Int) = b * quotU a b + remU a b := by
  unfold quotU remU
  split
  case isTrue h => simp [h]
  case isFalse => exact_mod_cast (Nat.div_add_mod a b).symm

theorem remU_bound {a b : Nat} (hb : b ≠ 0) : 0 ≤ remU a b ∧ remU a b < b := by
  rw [remU, if_neg hb]
  exact ⟨Int.natCast_nonneg _, by exact_mod_cast Nat.mod_lt a (Nat.pos_of_ne_zero hb)⟩

theorem remU_emod {a n : Nat} (b : Nat) (ha : a < 2 ^ n) : remU a b % 2 ^ n = remU a b := by
  unfold remU
  split
  · exact_mod_cast Nat.mod_eq_of_lt ha
  · exact_mod_cast Nat.mod_eq_of_lt ((Nat.mod_le a b).trans_lt ha)

/-- What a hart of n bits keeps of an unsigned division. -/
theorem unsigned_division {n a b : Nat} {q r : Int} (ha : a < 2 ^ n) (hq : q = quotU a b % 2 ^ n)
    (hr : r = remU a b % 2 ^ n) : (a : Int) = b * q + r ∧ ((b : Int) ≠ 0 → 0 ≤ r ∧ r < b) := by
  rw [remU_emod b ha] at hr
  subst hr
  refine ⟨?_, fun hb => remU_bound (by exact_mod_cast hb)⟩
  by_cases hb : b = 0
  · simp [hb, remU]
  · have hquot : quotU a b % 2 ^ n = quotU a b := by
      rw [quotU, if_neg hb]
      exact_mod_cast Nat.mod_eq_of_lt ((Nat.div_le_self a b).trans_lt ha)
    rw [hq, hquot]
    exact mul_quotU_add_remU a b

/-! ### Results read back as numbers -/

section
variable {i : Instr} {s t : State} {len : Nat} {rd : RegNum} {v : Int}

/-- Of the one state an instruction answers, the destination's number modulo 2 ^ XLEN. -/
theorem Completes.uval_eq (h : Completes i s fun t => XResult s t len rd v) (hrd : rd ≠ 0) (hexec : exec i s = .next t) :
    t.xlen = s.xlen ∧ t.uval rd = v % 2 ^ s.xlen.bits := by
  obtain ⟨u, hu, hholds, -, -, -, -, -, -, hcfg, -⟩ := h
  obtain rfl : u = t := Host.Outcome.next.inj (hu.symm.trans hexec)
  rw [HoldsX, if_neg hrd] at hholds
  exact ⟨congrArg Config.xlen hcfg, hholds⟩

theorem Completes.sval_eq (h : Completes i s fun t => XResult s t len rd v) (hrd : rd ≠ 0) (hexec : exec i s = .next t) :
    t.sval rd = v.bmod (2 ^ s.xlen.bits) := by
  obtain ⟨hxlen, huval⟩ := h.uval_eq hrd hexec
  rw [State.uval] at huval
  rw [State.sval, hxlen, huval]
  exact_mod_cast Int.emod_bmod v (2 ^ s.xlen.bits)

/-- The low 32 bits of a W form's result are its number's. -/
theorem Completes.low32_modEq (h : Completes i s fun t => XResult s t len rd (v.bmod (2 ^ 32))) (hrd : rd ≠ 0)
    (hexec : exec i s = .next t) : ((t.rx rd).toNat : Int) ≡ v [ZMOD 2 ^ 32] := by
  obtain ⟨-, huval⟩ := h.uval_eq hrd hexec
  have hx : ((t.rx rd).toNat : Int) ≡ v.bmod (2 ^ 32) [ZMOD 2 ^ 32] := by
    rw [← State.uval, huval]
    exact Int.emod_emod_of_dvd _ (two_pow_32_dvd_xlen _)
  exact hx.trans Int.bmod_emod

/-- A W form's result is of 32 bits at either XLEN. -/
theorem Completes.sval_eq_bmod_32 (h : Completes i s fun t => XResult s t len rd (v.bmod (2 ^ 32))) (hrd : rd ≠ 0)
    (hexec : exec i s = .next t) : t.sval rd = v.bmod (2 ^ 32) := by
  obtain ⟨hlow, hhigh⟩ := bmod_two_pow_range v (n := 32) (by decide)
  have hpow : (2 : Int) ^ (32 - 1) ≤ 2 ^ (s.xlen.bits - 1) := by cases s.xlen <;> decide
  rw [h.sval_eq hrd hexec]
  exact bmod_two_pow_eq_self (by cases s.xlen <;> decide) (by omega) (by omega)

theorem Completes.uval32_eq (h : Completes i s fun t => XResult s t len rd (v.bmod (2 ^ 32))) (hrd : rd ≠ 0)
    (hexec : exec i s = .next t) : t.uval32 rd = v % 2 ^ 32 := by
  rw [State.uval32, Int.natCast_emod, Nat.cast_pow, Nat.cast_ofNat]
  exact h.low32_modEq hrd hexec

end

/-- Settles O29: the destination holds the model's quotient and remainder modulo 2 ^ XLEN, or wrapped to 32 bits. -/
theorem quotientAndRemainder : Obligations.QuotientAndRemainder := by
  intro s rd rs1 rs2 q r hrd signed unsigned
  refine ⟨fun hq hr => ?_, fun hq hr => ?_, fun hq hr => ?_, fun hq hr => ?_⟩
  · exact signed_division (by cases s.xlen <;> decide) (s.sval_range rs1) ((div_completes s rd rs1 rs2).sval_eq hrd hq)
      ((rem_completes s rd rs1 rs2).sval_eq hrd hr)
  · obtain ⟨-, hquot⟩ := (divu_completes s rd rs1 rs2).uval_eq hrd hq
    obtain ⟨-, hrem⟩ := (remu_completes s rd rs1 rs2).uval_eq hrd hr
    exact unsigned_division (s.rx_toNat_lt rs1) hquot hrem
  · have hquot := (divw_completes s rd rs1 rs2).sval_eq_bmod_32 hrd hq
    have hrem := (remw_completes s rd rs1 rs2).sval_eq_bmod_32 hrd hr
    exact signed_division (n := 32) (by decide) (s.sval32_range rs1) hquot hrem
  · have hlow : low32 (s.rx rs1) < 2 ^ 32 := Nat.mod_lt _ (Nat.two_pow_pos 32)
    exact unsigned_division hlow ((divuw_completes s rd rs1 rs2).uval32_eq hrd hq)
      ((remuw_completes s rd rs1 rs2).uval32_eq hrd hr)

end Sys2Proof.Machine
end

section
/-!
Jumps and branches: what a jump with a link and a conditional branch answer, in terms of the number of the target.
-/
namespace Sys2Proof.Machine

/-! ### The two shapes (R280, R282, R285, R811) -/

section
variable {i : Instr} {s : State} {len n : Nat} {a : Word}

theorem targetAligned_iff (ha : (lowBits s.xlen a).toNat = n) :
    targetAligned s n ↔ s.cfg.ext.c = true ∨ alignedTo 4 (lowBits s.xlen a) = true := by
  subst ha
  simp [targetAligned, alignedTo]

/-- A jump, whatever state its link was written in, completes at an aligned target and traps at any other. -/
theorem jumpOrRaise_answers {t : State} (hi : exec i s = jumpOrRaise s t a) (ha : (lowBits s.xlen a).toNat = n) :
    (targetAligned s n → exec i s = .next (t.jump a)) ∧
      (¬ targetAligned s n → TakesTrap i s (.instructionAddressMisaligned (BitVec.ofNat 64 n))) := by
  rw [targetAligned_iff ha]
  obtain ⟨hc, hoff, hraise⟩ | ⟨hon, hrun⟩ := jumpOrRaise_cases s t a
  · refine ⟨fun h => ?_, fun _ => ?_⟩
    · simp [hc, hoff] at h
    · rw [TakesTrap, hi, hraise, ← ha, BitVec.ofNat_toNat, BitVec.setWidth_eq]
  · exact ⟨fun _ => hi.trans hrun, fun h => absurd hon h⟩

theorem jumpsTo_jump {t : State} (hcfg : t.cfg = s.cfg) (hcount : t.instret = s.instret)
    (ha : (lowBits s.xlen a).toNat = n) : JumpsTo s (t.jump a) n := by
  have hxlen : t.xlen = s.xlen := congrArg Config.xlen hcfg
  exact ⟨by rw [State.jump_pc, hxlen, ha], by rw [State.jump_instret, hcount]⟩

theorem jumpAnswer_of_linkAndJump {rd : RegNum} (hi : exec i s = linkAndJump s len rd a)
    (ha : (lowBits s.xlen a).toNat = n) : JumpAnswer i s len rd n := by
  obtain ⟨hrun, htrap⟩ := jumpOrRaise_answers hi ha
  refine ⟨fun haligned => ⟨_, hrun haligned, ?_, ?_, ?_⟩, htrap⟩
  · have hlink : ((s.pc + BitVec.ofNat 64 len).toNat : Int) ≡ s.pc.toNat + len [ZMOD 2 ^ 64] := by
      refine (toNat_add_modEq _ _).trans (Int.ModEq.add_left _ ?_)
      rw [BitVec.toNat_ofNat]
      exact_mod_cast Nat.mod_modEq _ _
    simpa [HoldsX] using s.wx_holdsX rd (hlink.of_dvd (two_pow_xlen_dvd _))
  · exact fun r hr => by simp [hr]
  · have hjump := jumpsTo_jump (t := s.wx rd (s.pc + BitVec.ofNat 64 len)) (by simp) (by simp) ha
    simpa [SameF, SameMem, SameBytes, SameRest] using hjump

theorem branchAnswer_of_branchIf {taken : Bool} {off : Word} {cond : Prop} (hi : exec i s = branchIf s len taken off)
    (hcond : taken = true ↔ cond) (ha : (lowBits s.xlen (s.pc + off)).toNat = n) : BranchAnswer i s len cond n := by
  rw [BranchAnswer, ← hcond]
  obtain ⟨rfl, hrun⟩ | ⟨rfl, hrun⟩ := branchIf_cases s len taken off
  · refine ⟨fun _ => ⟨_, hi.trans hrun, ?_, advances_retire len rfl rfl rfl⟩, fun h => (nomatch h), fun h => (nomatch h)⟩
    simp [OnlyPc, SameX, SameF, SameMem, SameBytes, SameRest]
  · obtain ⟨hjump, htrap⟩ := jumpOrRaise_answers (hi.trans hrun) ha
    refine ⟨fun h => absurd rfl h, fun _ haligned => ⟨_, hjump haligned, ?_, jumpsTo_jump rfl rfl ha⟩, fun _ => htrap⟩
    simp [OnlyPc, SameX, SameF, SameMem, SameBytes, SameRest]

end

/-! ### Targets as numbers (R203, R204, R282) -/

/-- A doubled and sign-extended offset. -/
theorem signExtend_append_zero_modEq {w : Nat} (off : BitVec w) (hw : w < 64) :
    (((off ++ 0#1).signExtend 64).toNat : Int) ≡ 2 * off.toInt [ZMOD 2 ^ 64] := by
  have hoff : ((off ++ 0#1).signExtend 64).toInt = 2 * off.toInt := by
    rw [BitVec.toInt_signExtend_of_le (by omega), BitVec.toInt_append_zero, pow_one]
  exact hoff ▸ toNat_modEq_toInt _

theorem State.pc_target_toNat (s : State) {w : Nat} (off : BitVec w) (hw : w < 64) :
    (lowBits s.xlen (s.pc + (off ++ 0#1).signExtend 64)).toNat = s.target (s.pc.toNat + 2 * off.toInt) :=
  (s.target_eq_lowBits ((toNat_add_modEq _ _).trans ((signExtend_append_zero_modEq off hw).add_left _))).symm

theorem jalrTarget_toNat (s : State) (rs1 : RegNum) {off : Word} {v : Int} (h : (off.toNat : Int) ≡ v [ZMOD 2 ^ 64]) :
    (lowBits s.xlen (jalrTarget s rs1 off)).toNat = s.target (s.uval rs1 + v) / 2 * 2 := by
  rw [State.uval, s.target_eq_lowBits ((toNat_add_modEq (s.rx rs1) off).trans (h.add_left _)), lowBits_toNat, lowBits_toNat,
    jalrTarget,
    clearBit0_toNat]
  cases s.xlen <;> simp only [Xlen.bits] <;> omega

/-- Settles O30. -/
theorem jumps : Obligations.Jumps := by
  intro s rd rs1 off imm
  exact ⟨jumpAnswer_of_linkAndJump rfl (s.pc_target_toNat off (by decide)),
    jumpAnswer_of_linkAndJump rfl (jalrTarget_toNat s rs1 (immValue_modEq imm))⟩

/-- Equal registers hold equal numbers. -/
theorem rx_beq_iff (s : State) (r q : RegNum) : (s.rx r == s.rx q) = true ↔ s.uval r = s.uval q := by
  rw [beq_iff_eq, State.uval, State.uval, Nat.cast_inj, BitVec.toNat_inj]

theorem ltS_rx_iff (s : State) (r q : RegNum) : ltS s.xlen (s.rx r) (s.rx q) = true ↔ s.sval r < s.sval q := by
  rw [ltS_eq_decide, decide_eq_true_iff, State.sval, State.sval]

theorem ult_rx_iff (s : State) (r q : RegNum) : (s.rx r).ult (s.rx q) = true ↔ s.uval r < s.uval q := by
  rw [BitVec.ult, decide_eq_true_iff, State.uval, State.uval, Nat.cast_lt]

/-- Settles O31: the complementary conditions are negations. -/
theorem branches : Obligations.Branches := by
  intro s rs1 rs2 imm target
  have htarget : (lowBits s.xlen (s.pc + branchOffset imm)).toNat = target := s.pc_target_toNat imm (by decide)
  refine ⟨branchAnswer_of_branchIf rfl (rx_beq_iff s _ _) htarget, branchAnswer_of_branchIf rfl ?_ htarget,
    branchAnswer_of_branchIf rfl (ltS_rx_iff s _ _) htarget, branchAnswer_of_branchIf rfl ?_ htarget,
    branchAnswer_of_branchIf rfl (ult_rx_iff s _ _) htarget, branchAnswer_of_branchIf rfl ?_ htarget⟩
  · rw [bne, Bool.not_eq_true', ← Bool.not_eq_true, rx_beq_iff]
  · rw [Bool.not_eq_true', ← Bool.not_eq_true, ltS_rx_iff, not_lt]
  · rw [Bool.not_eq_true', ← Bool.not_eq_true, ult_rx_iff, not_lt]

theorem rx_beq_zero_iff (s : State) (r : RegNum) : (s.rx r == 0) = true ↔ s.uval r = 0 := by
  rw [beq_iff_eq, State.uval, Nat.cast_eq_zero, ← BitVec.toNat_inj]
  rfl

/-- Settles O58: the targets of the register forms are those of a zero offset. -/
theorem compressedControl : Obligations.CompressedControl := by
  intro s r q rs o11 o8 o5 o6
  have hjr : (lowBits s.xlen (jalrTarget s rs 0)).toNat = s.target (s.uval rs) / 2 * 2 := by
    rw [jalrTarget_toNat s rs (off := 0) (v := 0) rfl, add_zero]
  have hj := s.pc_target_toNat o11 (by decide)
  have hb := s.pc_target_toNat o8 (by decide)
  refine ⟨jumpAnswer_of_linkAndJump rfl hj, jumpAnswer_of_linkAndJump rfl hj, jumpAnswer_of_linkAndJump rfl hjr,
    jumpAnswer_of_linkAndJump rfl hjr, branchAnswer_of_branchIf rfl (rx_beq_zero_iff s _) hb,
    branchAnswer_of_branchIf rfl ?_ hb, rfl, rfl, rfl, rfl⟩
  rw [bne, Bool.not_eq_true', ← Bool.not_eq_true, rx_beq_zero_iff]

end Sys2Proof.Machine
end

section
/-!
Accesses of memory: loads, stores and atomics as shapes with the value read or written, and the checks that come before.
-/
namespace Sys2Proof.Machine

/-! ### Values (R88, R297 to R301) -/

theorem two_pow_eight_mul (n : Nat) : 2 ^ (8 * n) = 256 ^ n := by
  rw [pow_mul]
  rfl

/-- The signed number of n bytes. -/
theorem ofNat_toInt (n v : Nat) : (BitVec.ofNat (8 * n) v).toInt = (v : Int).bmod (256 ^ n) := by
  rw [BitVec.toInt_eq_toNat_bmod, BitVec.toNat_ofNat, Int.natCast_emod, Int.emod_bmod, two_pow_eight_mul]

theorem loadSigned_modEq {n : Nat} (v : Nat) (hn : 8 * n ≤ 64) :
    ((loadSigned n v).toNat : Int) ≡ (v : Int).bmod (256 ^ n) [ZMOD 2 ^ 64] := by
  have hint : (loadSigned n v).toInt = (v : Int).bmod (256 ^ n) := by
    rw [loadSigned, BitVec.toInt_signExtend_of_le hn, ofNat_toInt]
  exact hint ▸ toNat_modEq_toInt _

theorem loadUnsigned_modEq (v : Nat) : ((loadUnsigned v).toNat : Int) ≡ v [ZMOD 2 ^ 64] := by
  rw [loadUnsigned, BitVec.toNat_ofNat]
  exact_mod_cast Nat.mod_modEq _ _

/-! ### Loads and stores (R295, R302) -/

/-- What the written register holds, whatever else the state t has over the state u it was written in. -/
theorem holdsX_of_rx_eq {s t u : State} {rd : RegNum} {w : Word} {v : Int} (hrx : t.rx rd = (u.wx rd w).rx rd)
    (hxlen : u.xlen = s.xlen) (hv : (w.toNat : Int) ≡ v [ZMOD 2 ^ 64]) : HoldsX s t rd v := by
  have h := u.wx_holdsX rd (hv.of_dvd (two_pow_xlen_dvd _))
  rwa [HoldsX, hxlen, ← hrx] at h

section
variable {i : Instr} {s : State} {len n : Nat} {a : Word}

/-- A load into x[rd] of what it makes of the bytes. -/
theorem accessAnswer_of_loadX {rd : RegNum} {w : Nat → Word} {v : Int}
    (hi : exec i s = loadThen s .load n a fun x t => (t.wx rd (w x)).retire len)
    (hv : ((w (s.loadedValue n a)).toNat : Int) ≡ v [ZMOD 2 ^ 64]) :
    AccessAnswer i s .load n a fun t => XLoad s t len n rd a v := by
  refine ⟨fun hok => ⟨_, hi.trans (loadThen_of_ok _ hok), ?_⟩, fun c hc => hi.trans (loadThen_of_trap _ hc)⟩
  rw [State.memRead_eq_loadedValue]
  refine ⟨holdsX_of_rx_eq (State.retire_rx ..) (State.noteIo_xlen ..) hv, fun r hr => by simp [hr], ?_⟩
  simpa [SameF, SameBytes, SameRest, advances_retire, NotesIo] using s.noteIo_notesIo .read n a (s.loadedValue n a)

theorem accessAnswer_of_loadSX {rd : RegNum} (hi : exec i s = loadSX s len n rd a) (hn : 8 * n ≤ 64) :
    AccessAnswer i s .load n a fun t => XLoad s t len n rd a ((s.loadedValue n a : Int).bmod (256 ^ n)) :=
  accessAnswer_of_loadX hi (loadSigned_modEq _ hn)

theorem accessAnswer_of_loadZX {rd : RegNum} (hi : exec i s = loadZX s len n rd a) :
    AccessAnswer i s .load n a fun t => XLoad s t len n rd a (s.loadedValue n a) :=
  accessAnswer_of_loadX hi (loadUnsigned_modEq _)

theorem accessAnswer_of_storeX {rs2 : RegNum} (hi : exec i s = storeX s len n rs2 a) (hn : n ≤ 8) :
    AccessAnswer i s .store n a fun t => StoreDone s t len n a ((s.rx rs2).toNat % 256 ^ n) := by
  rw [← two_pow_eight_mul]
  exact accessAnswer_of_storeThen hi (by omega)

end

/-- Settles O33: at eight bytes the signed number is the word's own. -/
theorem integerLoads : Obligations.IntegerLoads := by
  intro s rd rs1 imm a
  refine ⟨s.address_toNat rs1 imm, accessAnswer_of_loadSX rfl (by decide), accessAnswer_of_loadSX rfl (by decide),
    accessAnswer_of_loadSX rfl (by decide), ?_, accessAnswer_of_loadZX rfl, accessAnswer_of_loadZX rfl,
    accessAnswer_of_loadZX rfl⟩
  exact accessAnswer_of_loadX rfl ((loadSigned_modEq _ (by decide)).trans Int.bmod_emod)

/-- Settles O35. -/
theorem integerStores : Obligations.IntegerStores := by
  intro s rs2 rs1 imm a v
  exact ⟨s.address_toNat rs1 imm, accessAnswer_of_storeX rfl (by decide), accessAnswer_of_storeX rfl (by decide),
    accessAnswer_of_storeX rfl (by decide), accessAnswer_of_storeX rfl (by decide)⟩

/-- A scaled offset is its number (R726). -/
theorem State.address_scaledOffset_toNat (s : State) (base : RegNum) {w : Nat} (k : Nat) (off : BitVec w) :
    (s.address base (scaledOffset k off)).toNat = s.target (s.uval base + off.toNat * 2 ^ k) := by
  have hoff : ((scaledOffset k off).toNat : Int) ≡ off.toNat * 2 ^ k [ZMOD 2 ^ 64] := by
    rw [scaledOffset, BitVec.toNat_ofNat]
    exact_mod_cast Nat.mod_modEq _ _
  exact (s.target_eq_lowBits ((toNat_add_modEq _ _).trans (hoff.add_left _))).symm

/-- Settles O57: each form is the load or store of its width at the scaled offset. -/
theorem compressedMemory : Obligations.CompressedMemory := by
  intro s r q rd o5 o6 at3 sp xload fload xstore fstore
  have hfstore {i : Instr} {v : RegNum} {n : Nat} {a : Word} (hi : exec i s = storeF s 2 n v a) (hn : 8 * n ≤ 128) :
      fstore i v n a := by
    have h := accessAnswer_of_storeF hi hn
    rwa [two_pow_eight_mul] at h
  refine ⟨fun k _ => ⟨s.address_scaledOffset_toNat _ k o5, s.address_scaledOffset_toNat _ k o6⟩, ⟨?_, ?_, ?_, ?_⟩,
    ⟨?_, ?_, hfstore rfl (by decide), hfstore rfl (by decide)⟩, ⟨?_, ?_, ?_, ?_⟩,
    ⟨?_, ?_, hfstore rfl (by decide), hfstore rfl (by decide)⟩⟩
  · exact accessAnswer_of_loadSX rfl (by decide)
  · exact accessAnswer_of_loadSX rfl (by decide)
  · exact accessAnswer_of_loadF rfl (by decide)
  · exact accessAnswer_of_loadF rfl (by decide)
  · exact accessAnswer_of_storeX rfl (by decide)
  · exact accessAnswer_of_storeX rfl (by decide)
  · exact accessAnswer_of_loadSX rfl (by decide)
  · exact accessAnswer_of_loadSX rfl (by decide)
  · exact accessAnswer_of_loadF rfl (by decide)
  · exact accessAnswer_of_loadF rfl (by decide)
  · exact accessAnswer_of_storeX rfl (by decide)
  · exact accessAnswer_of_storeX rfl (by decide)

/-! ### Read after write (R88, R104) -/

/-- Settles O36: the bytes written are the ones read; other bytes are in no store. -/
theorem memoryReadAfterWrite : Obligations.MemoryReadAfterWrite := by
  intro s n m a b v _ hn hmain
  have hmem {c : Nat} (hc : c ∈ accessAddrs s.xlen a n) : ∃ i, i < n ∧ c = (a.toNat + i) % 2 ^ s.xlen.bits := by
    obtain ⟨i, hi, rfl⟩ := List.mem_map.mp hc
    exact ⟨i, List.mem_range.mp hi, rfl⟩
  constructor
  · rw [s.memRead_memWrite n a v (by omega), two_pow_eight_mul]
    intro c hc
    obtain ⟨i, hi, rfl⟩ := hmem hc
    exact hmain i hi
  · intro hother
    have hbyte : ∀ c ∈ accessAddrs s.xlen b m, (s.memWrite n a v).dataByte c = s.dataByte c := by
      intro c hc
      obtain ⟨j, hj, rfl⟩ := List.mem_map.mp hc
      obtain ⟨hio, hne⟩ := hother j (List.mem_range.mp hj)
      have hio' : isIo s.cfg (byteAddr s.xlen b j) = false := hio
      have hout : byteAddr s.xlen b j ∉ accessAddrs s.xlen a n := by
        intro hin
        obtain ⟨i, hi, heq⟩ := hmem hin
        exact hne i hi heq
      rw [State.dataByte, State.dataByte, State.memWrite_cfg, hio', s.readByte_memWrite_of_not_mem n a v _ hout]
      rfl
    rw [State.memRead, State.memRead, State.memWrite_cfg, State.memWrite_xlen, List.map_congr_left hbyte]

/-! ### Atomics (R434 to R441, R455) -/

theorem Stored.of_eq {s t u : State} {n : Nat} {a : Word} {v : Nat} (h : Stored s u n a v) (hmem : t.mem = u.mem)
    (hstale : t.stale = u.stale) (hio : t.io = u.io) : Stored s t n a v := by
  simpa [Stored, StoredBytes, SameBytesOutside, NotesIo, hmem, hstale, hio] using h

section
variable {i : Instr} {s : State} {n : Nat} {a : Word} {rd rs2 : RegNum}

theorem accessAnswer_of_loadReserved (hi : exec i s = loadReserved s n rd a) (hc : configLegal s.cfg = true)
    (hn : n ∣ 8) : AccessAnswer i s .lr n a fun t => LrDone s t n rd a := by
  have hle : n ≤ 8 := Nat.le_of_dvd (by decide) hn
  obtain ⟨c, hcheck, hraise⟩ | ⟨hcheck, hrun⟩ := loadReserved_cases s n rd a
  · refine ⟨fun h => by simp [hcheck] at h, fun d hd => ?_⟩
    obtain rfl : c = d := Option.some.inj (hcheck.symm.trans hd)
    exact hi.trans hraise
  · refine ⟨fun _ => ⟨_, hi.trans hrun, ?_⟩, fun d hd => by simp [hcheck] at hd⟩
    rw [State.memRead_eq_loadedValue]
    refine ⟨holdsX_of_rx_eq ((State.retire_rx ..).trans (State.reserve_rx ..)) (State.noteIo_xlen ..)
        (loadSigned_modEq _ (by omega)),
      fun r hr => by simp [hr], by simp [SameF], by simp, ⟨_, rfl, ?_⟩, ?_⟩
    · refine ⟨rfl, rfl, fun k hk => ?_⟩
      have halign := beq_iff_eq.mp (aligned_of_accessCheck_lr s n a hcheck)
      simp only [configLegal, Bool.and_eq_true] at hc
      obtain ⟨⟨⟨-, hgranule⟩, -⟩, -⟩ := hc
      exact inSet_reservationSet (by simpa using hgranule) hn halign hk
    · simpa [SameBytes, SameRest, advances_retire, NotesIo] using s.noteIo_notesIo .read n a (s.loadedValue n a)

/-- A set of byte ranges that holds every byte of an access, as the statement writes it. -/
theorem reservationCovers_eq_decide (s : State) (n : Nat) (a : Word) :
    reservationCovers s n a =
      decide (∃ r ∈ s.reservation, ∀ i, i < n → inSet r.bytes ((a.toNat + i) % 2 ^ s.xlen.bits) = true) := by
  unfold reservationCovers
  cases s.reservation with
  | none => simp
  | some r =>
    rw [Bool.eq_iff_iff]
    simp [accessAddrs, byteAddr]

/-- A successful SC (R436). -/
theorem scDone_of_success (hn : n ≤ 8) (hs : scSucceeds s n a = true) :
    ScDone s (({ (s.memWrite n a (lowBytes n (s.rx rs2).toNat)).wx rd 0 with reservation := none } : State).retire 4)
      n rd rs2 a := by
  rw [ScDone, if_pos hs, lowBytes, two_pow_eight_mul]
  refine ⟨⟨holdsX_of_rx_eq rfl (State.memWrite_xlen ..) rfl, ?_⟩, rfl, fun r hr => ?_, ?_⟩
  · exact (s.memWrite_stored a _ (by omega)).of_eq (by simp) (by simp) (by simp)
  · exact (State.rx_wx_of_ne _ _ hr).trans (State.memWrite_rx ..)
  · simp [SameF, SameRest, advances_retire]

/-- A failed SC: the failure code 1, and no access (R436, D14). -/
theorem scDone_of_failure (hs : scSucceeds s n a = false) :
    ScDone s (({ s.wx rd 1 with reservation := none } : State).retire 4) n rd rs2 a := by
  rw [ScDone, if_neg (by simp [hs])]
  refine ⟨⟨holdsX_of_rx_eq (u := s) (w := 1) rfl rfl rfl, ?_⟩, rfl, fun r hr => State.rx_wx_of_ne _ _ hr, ?_⟩
  · simp [SameMem, SameBytes]
  · simp [SameF, SameRest, advances_retire]

theorem accessAnswer_of_storeConditional (hi : exec i s = storeConditional s n rd rs2 a) (hn : n ≤ 8) :
    AccessAnswer i s .sc n a fun t => ScDone s t n rd rs2 a := by
  obtain ⟨c, hcheck, hraise⟩ | ⟨hcheck, hs, hrun⟩ | ⟨hcheck, hs, hrun⟩ := storeConditional_cases s n rd rs2 a
  · refine ⟨fun h => by simp [hcheck] at h, fun d hd => ?_⟩
    obtain rfl : c = d := Option.some.inj (hcheck.symm.trans hd)
    exact hi.trans hraise
  · exact ⟨fun _ => ⟨_, hi.trans hrun, scDone_of_success hn hs⟩, fun d hd => by simp [hcheck] at hd⟩
  · exact ⟨fun _ => ⟨_, hi.trans hrun, scDone_of_failure hs⟩, fun d hd => by simp [hcheck] at hd⟩

/-- An AMO's device accesses: the read, then the write (R104, R455). -/
theorem amo_io (s : State) (a : Word) (v new : Nat) (hn : n ≤ 8) :
    ((s.noteIo .read n a v).memWrite n a new).io =
      if (accessAddrs s.xlen a n).any (isIo s.cfg) then ⟨.write, a.toNat, n, new⟩ :: ⟨.read, a.toNat, n, v⟩ :: s.io
      else s.io := by
  have hread := s.noteIo_notesIo .read n a v
  obtain ⟨-, hwrite⟩ := (s.noteIo .read n a v).memWrite_stored a new (by omega : n ≤ 2 ^ 32)
  rw [NotesIo] at hread
  rw [NotesIo, State.noteIo_xlen, State.noteIo_cfg, hread] at hwrite
  rw [hwrite]
  split
  · rfl
  · rfl

theorem State.noteIo_valueByteAddr (s : State) (k : IoKind) (m : Nat) (b : Word) (v : Nat) (n : Nat) (a : Word) (i : Nat) :
    (s.noteIo k m b v).valueByteAddr n a i = s.valueByteAddr n a i := by
  simp [State.valueByteAddr]

theorem accessAnswer_of_atomicOp {op : AmoOp} {new : Nat} (hi : exec i s = atomicOp s op n rd rs2 a) (hn : n ≤ 8)
    (hnew : amoValue op n (s.loadedValue n a) ((s.rx rs2).toNat % 256 ^ n) = new) :
    AccessAnswer i s (.amo op) n a fun t => AmoDone s t n rd a new := by
  obtain ⟨c, hcheck, hraise⟩ | ⟨hcheck, hrun⟩ := atomicOp_cases s op n rd rs2 a
  · refine ⟨fun h => by simp [hcheck] at h, fun d hd => ?_⟩
    obtain rfl : c = d := Option.some.inj (hcheck.symm.trans hd)
    exact hi.trans hraise
  · refine ⟨fun _ => ⟨_, hi.trans hrun, ?_⟩, fun d hd => by simp [hcheck] at hd⟩
    rw [lowBytes, two_pow_eight_mul, State.memRead_eq_loadedValue, hnew]
    refine ⟨holdsX_of_rx_eq (State.retire_rx ..) (by simp) (loadSigned_modEq _ (by omega)), fun r hr => by simp [hr],
      by simp [SameF], by simp, by simp, ?_, ?_, ?_⟩
    · have h := (s.noteIo .read n a (s.loadedValue n a)).memWrite_storedBytes a new (by omega : n ≤ 2 ^ 32)
      simpa [StoredBytes, SameBytesOutside, State.noteIo_valueByteAddr] using h
    · simpa using amo_io s a (s.loadedValue n a) new hn
    · simp [SameRest, advances_retire]

end

/-- The nine operations as the statement writes them (R456 to R464). -/
theorem amoValue_eq (n t v : Nat) :
    amoValue .swap n t v = v ∧ amoValue .add n t v = (t + v) % 256 ^ n ∧ amoValue .xor n t v = t ^^^ v ∧
      amoValue .and n t v = t &&& v ∧ amoValue .or n t v = t ||| v ∧
      amoValue .min n t v = (if (t : Int).bmod (256 ^ n) < (v : Int).bmod (256 ^ n) then t else v) ∧
      amoValue .max n t v = (if (t : Int).bmod (256 ^ n) < (v : Int).bmod (256 ^ n) then v else t) ∧
      amoValue .minu n t v = min t v ∧ amoValue .maxu n t v = max t v := by
  refine ⟨rfl, ?_, rfl, rfl, rfl, ?_, ?_, ?_, ?_⟩
  · rw [amoValue, two_pow_eight_mul]
  · simp only [amoValue, ofNat_toInt]
  · simp only [amoValue, ofNat_toInt]
  · simp only [amoValue]
    split
    · omega
    · omega
  · simp only [amoValue]
    split
    · omega
    · omega

/-- Settles O42. -/
theorem atomicOperations : Obligations.AtomicOperations := by
  intro s rd rs1 rs2 aq rl a old v signed least most amo
  obtain ⟨hswap, hadd, hxor, hand, hor, hmin, hmax, hminu, hmaxu⟩ := amoValue_eq 4 (old 4) (v 4)
  obtain ⟨hswap', hadd', hxor', hand', hor', hmin', hmax', hminu', hmaxu'⟩ := amoValue_eq 8 (old 8) (v 8)
  have hword {i : Instr} {op : AmoOp} {new : Nat} (hi : exec i s = atomicOp s op 4 rd rs2 a)
      (hnew : amoValue op 4 (old 4) (v 4) = new) : amo i op 4 new := accessAnswer_of_atomicOp hi (by decide) hnew
  have hdouble {i : Instr} {op : AmoOp} {new : Nat} (hi : exec i s = atomicOp s op 8 rd rs2 a)
      (hnew : amoValue op 8 (old 8) (v 8) = new) : amo i op 8 new := accessAnswer_of_atomicOp hi (by decide) hnew
  exact ⟨⟨hword rfl hswap, hword rfl hadd, hword rfl hxor, hword rfl hand, hword rfl hor, hword rfl hmin, hword rfl hmax,
    hword rfl hminu, hword rfl hmaxu⟩, ⟨hdouble rfl hswap', hdouble rfl hadd', hdouble rfl hxor', hdouble rfl hand',
    hdouble rfl hor', hdouble rfl hmin', hdouble rfl hmax', hdouble rfl hminu', hdouble rfl hmaxu'⟩⟩

end Sys2Proof.Machine

namespace Sys2Proof
open Machine

/-- Settles O40. -/
theorem loadReserved : Obligations.LoadReserved := by
  intro s rd rs1 aq rl hc
  exact ⟨accessAnswer_of_loadReserved rfl hc (by decide), accessAnswer_of_loadReserved rfl hc (by decide)⟩

/-- Settles O41. -/
theorem storeConditional : Obligations.StoreConditional := by
  intro s rd rs1 rs2 aq rl
  refine ⟨accessAnswer_of_storeConditional rfl (by decide), accessAnswer_of_storeConditional rfl (by decide), fun n a => ?_⟩
  rw [scSucceeds, reservationCovers_eq_decide]

end Sys2Proof
end

section
/-!
The checks of an access, the fetch view, the computational compressed instructions, and the statements about one definition
each: fences, registers, reset, sample words, the step of a decoded and of an undecodable code.
-/
namespace Sys2Proof.Machine

/-! ### The checks of an access in their order (R96 to R100) -/

section
variable (s : State) (k : Access) (n : Nat) (a : Word)

theorem accessible_iff : accessible s.cfg k n a = true ↔
    ∀ i, i < n → ∃ r, regionAt s.cfg ((a.toNat + i) % 2 ^ s.xlen.bits) = some r ∧ regionAllows k n r = true := by
  simp only [accessible, accessAddrs, List.all_map, List.all_eq_true, List.mem_range, Function.comp_apply]
  refine forall₂_congr fun i _ => ?_
  change (match regionAt s.cfg ((a.toNat + i) % 2 ^ s.xlen.bits) with
    | some r => regionAllows k n r
    | none => false) = true ↔ _
  cases regionAt s.cfg ((a.toNat + i) % 2 ^ s.xlen.bits) <;> simp

theorem misalignmentMayFault_eq_false_iff : misalignmentMayFault s.cfg n a = false ↔
    ∀ i, i < n → ∃ r, regionAt s.cfg ((a.toNat + i) % 2 ^ s.xlen.bits) = some r ∧ r.emulable = true := by
  simp only [misalignmentMayFault, accessAddrs, List.any_map, List.any_eq_false, List.mem_range, Function.comp_apply]
  refine forall₂_congr fun i _ => ?_
  change ¬ (match regionAt s.cfg ((a.toNat + i) % 2 ^ s.xlen.bits) with
    | some r => !r.emulable
    | none => true) = true ↔ _
  cases regionAt s.cfg ((a.toNat + i) % 2 ^ s.xlen.bits) <;> simp

variable {s k n a}

theorem accessCheck_of_alignmentCheck_some {c : Cause} (h : alignmentCheck s k n a = some c) :
    accessCheck s k n a = some c := by simp [accessCheck, h]

theorem accessCheck_of_inaccessible (h : alignmentCheck s k n a = none) (hno : ¬ accessible s.cfg k n a = true) :
    accessCheck s k n a = some (accessFaultCause k a) := by simp [accessCheck, h, hno]

theorem alignedTo_eq_false (h : a.toNat % n ≠ 0) : alignedTo n a = false := by simpa [alignedTo] using h

/-- A misaligned atomic raises one of the two exceptions, the access-fault only where a byte allows it (R99, R109). -/
theorem misalignedAtomicCause_cases : misalignedAtomicCause s k n a = misalignedCause k a ∨
    (misalignmentMayFault s.cfg n a = true ∧ misalignedAtomicCause s k n a = accessFaultCause k a) := by
  unfold misalignedAtomicCause
  dsimp only
  split_ifs with h
  · exact .inr ⟨(Bool.and_eq_true_iff.mp h).2, rfl⟩
  · exact .inl rfl

/-- A misaligned load or store is decided by the policy (R96). -/
theorem alignmentCheck_of_plain (h : a.toNat % n ≠ 0) (hk : k = .load ∨ k = .store) :
    alignmentCheck s k n a = misalignedOutcome s k n a := by
  obtain rfl | rfl := hk
  · simp [alignmentCheck, alignedTo_eq_false h]
  · simp [alignmentCheck, alignedTo_eq_false h]

/-- A misaligned atomic raises unless it is an AMO and Zam is present (R433, R470). -/
theorem alignmentCheck_of_atomic (h : a.toNat % n ≠ 0) (hk : ¬ (k = .load ∨ k = .store))
    (hzam : ¬ ((∃ op, k = .amo op) ∧ s.cfg.ext.zam = true)) :
    alignmentCheck s k n a = some (misalignedAtomicCause s k n a) := by
  cases k with
  | load | store => simp at hk
  | lr | sc => simp [alignmentCheck, alignedTo_eq_false h]
  | amo op =>
    have : s.cfg.ext.zam = false := by simpa using hzam
    simp [alignmentCheck, alignedTo_eq_false h, this]

end

/-- Settles O32: what the checks answer is what the alignment check answers, and where that is nothing the accessibility. -/
theorem accessCheckOrder : Obligations.AccessCheckOrder := by
  intro s k n a byteRegion reachable emulable reads misaligned fault plain amo ordinary
  have hmisaligned : misaligned (misalignedCause k a) := by
    cases k <;> simp [misaligned, reads, misalignedCause]
  have hfault : fault (accessFaultCause k a) := by
    cases k <;> simp [fault, reads, accessFaultCause]
  have hordinary (hpass : alignmentCheck s k n a = none) : ordinary := by
    have hreach : accessible s.cfg k n a = true ↔ reachable := accessible_iff s k n a
    refine ⟨fun h => (accessCheck_eq_none_iff s k n a).mpr ⟨hpass, hreach.mpr h⟩, fun h => ?_⟩
    exact ⟨_, accessCheck_of_inaccessible hpass (hreach.not.mpr h), hfault⟩
  have hemulable : misalignmentMayFault s.cfg n a = true ↔ ¬ emulable := by
    rw [← Bool.not_eq_false, misalignmentMayFault_eq_false_iff]
  refine ⟨fun h => hordinary (alignmentCheck_of_aligned s k n a (by simpa [alignedTo] using h)), fun h hk hp => ?_,
    fun h hk hp => ?_, fun h hk hp => ?_, fun h hk hzam => ?_, fun h hk hzam => ?_⟩
  · exact hordinary (by simp [alignmentCheck_of_plain h hk, misalignedOutcome, hp])
  · refine ⟨_, accessCheck_of_alignmentCheck_some ?_, hmisaligned⟩
    simp [alignmentCheck_of_plain h hk, misalignedOutcome, hp]
  · have hcheck := alignmentCheck_of_plain (s := s) h hk
    simp only [misalignedOutcome, hp] at hcheck
    split at hcheck
    · exact .inl (hordinary hcheck)
    · exact .inr ⟨_, accessCheck_of_alignmentCheck_some hcheck, .inl hmisaligned⟩
    · refine .inr ⟨_, accessCheck_of_alignmentCheck_some hcheck, ?_⟩
      by_cases hmay : misalignmentMayFault s.cfg n a = true
      · rw [if_pos hmay]
        exact .inr ⟨hfault, hemulable.mp hmay⟩
      · rw [if_neg hmay]
        exact .inl hmisaligned
  · obtain ⟨op, rfl⟩ := hk
    exact hordinary (by simp [alignmentCheck, hzam])
  · refine ⟨_, accessCheck_of_alignmentCheck_some (alignmentCheck_of_atomic h hk hzam), ?_, fun hp => ?_,
      fun hp hno => ?_⟩
    · obtain heq | ⟨hmay, heq⟩ := misalignedAtomicCause_cases (s := s) (k := k) (n := n) (a := a)
      · exact .inl (heq ▸ hmisaligned)
      · exact .inr ⟨heq ▸ hfault, hemulable.mp hmay⟩
    · simpa [misalignedAtomicCause, hp] using hmisaligned
    · simpa [misalignedAtomicCause, hp, hemulable.mpr hno] using hfault

/-! ### The fetch view (R71, R120, R335) -/

theorem mem_heldBytes_storeByte (s : State) (a : Nat) (b c : Byte) : c ∈ heldBytes (s.storeByte a b).stale a ↔
    c ∈ heldBytes s.stale a ∨ (c = readByte s.mem a ∧ c ≠ b) := by
  simp only [State.storeByte]
  split
  case isTrue h =>
    subst h
    simp
  case isFalse h =>
    simp only [heldBytes, if_true, List.mem_cons]
    constructor
    · rintro (rfl | hc)
      · exact .inr ⟨rfl, h⟩
      · exact .inl hc
    · rintro (hc | ⟨rfl, -⟩)
      · exact .inr hc
      · exact .inl rfl

/-- A fetched byte of main memory is the current one or one that was overwritten since the last FENCE.I (D21). -/
theorem State.fetchByte_mem (s : State) {a : Nat} (hio : isIo s.cfg a = false) :
    s.fetchByte a = readByte s.mem a ∨ s.fetchByte a ∈ heldBytes s.stale a := by
  simp only [State.fetchByte, hio, Bool.false_eq_true, if_false]
  cases hold : heldBytes s.stale a with
  | nil => exact .inl rfl
  | cons b l =>
    dsimp only
    rw [← List.mem_cons]
    have hlt : Config.heldByteChoice s.draw a % ((b :: l).length + 1) < (readByte s.mem a :: b :: l).length :=
      Nat.mod_lt _ (Nat.succ_pos _)
    rw [List.getD_eq_getElem _ _ hlt]
    exact List.getElem_mem hlt

theorem State.fetchByte_of_current (s : State) {a : Nat} (hio : isIo s.cfg a = false) (hnone : heldBytes s.stale a = []) :
    s.fetchByte a = readByte s.mem a := by
  simp [State.fetchByte, hio, hnone]

/-- Settles O39: with an empty view a fetched byte is the current one. -/
theorem fenceISynchronizesFetch : Obligations.FenceISynchronizesFetch := by
  intro s rd rs1 imm
  refine ⟨mem_heldBytes_storeByte s, fun a hio => s.fetchByte_mem hio, _, rfl, fun a hio => ?_, ?_⟩
  · exact State.fetchByte_of_current _ hio rfl
  · simp [SameX, SameF, SameRest, advances_retire, State.rx, State.xlen]

/-! ### Compressed computation (R722) -/

/-- Two register writes of one value differ in the pc by their lengths. -/
theorem finishX_expansion {i e : Instr} {s : State} {rd : RegNum} {v w : Word} (he : exec e s = finishX s 4 rd v)
    (hi : exec i s = finishX s 2 rd w) (hvw : w = v) :
    ∃ t, exec e s = .next t ∧ exec i s = .next { t with pc := lowBits s.xlen (s.pc + 2) } := by
  subst hvw
  refine ⟨_, he, ?_⟩
  rw [hi, finishX_eq, State.retire, State.wx_xlen, State.wx_pc]
  rfl

theorem addi4spnValue_eq (imm : BitVec 8) : addi4spnValue imm = immValue (0#2 ++ imm ++ 0#2) := by
  revert imm
  decide

theorem imm6Value_eq (imm : BitVec 6) : imm6Value imm = immValue (imm.signExtend 12) := by
  revert imm
  decide

theorem addi16spValue_eq (imm : BitVec 6) : addi16spValue imm = immValue ((imm ++ 0#4).signExtend 12) := by
  revert imm
  decide

theorem cluiValue_eq (imm : BitVec 6) : cluiValue imm = upperValue (imm.signExtend 20) := by
  revert imm
  decide

/-- Settles O56: each form writes its expansion's value to its expansion's register. -/
theorem compressedComputation : Obligations.CompressedComputation := by
  intro s r q rd rs i6 i8 as
  have hnop : exec (.cNop i6) s = finishX s 2 0 (s.rx 0 + immValue 0) := by
    exact congrArg (fun t : State => Host.Outcome.next (t.retire 2)) (s.wx_zero _).symm
  have hx0 : s.rx 0 = 0#64 := s.rx_zero
  have hli : imm6Value i6 = s.rx 0 + immValue (i6.signExtend 12) := by
    rw [hx0, BitVec.zero_add, imm6Value_eq]
  have hmv : s.rx rs = s.rx 0 + s.rx rs := by rw [hx0, BitVec.zero_add]
  refine ⟨?_, finishX_expansion rfl hnop rfl, ?_, ?_, finishX_expansion rfl rfl hli, ?_,
    finishX_expansion rfl rfl (cluiValue_eq i6),
    finishX_expansion rfl rfl rfl, finishX_expansion rfl rfl rfl, ?_, finishX_expansion rfl rfl rfl,
    finishX_expansion rfl rfl rfl, finishX_expansion rfl rfl rfl, finishX_expansion rfl rfl rfl,
    finishX_expansion rfl rfl rfl, finishX_expansion rfl rfl rfl, finishX_expansion rfl rfl rfl,
    finishX_expansion rfl rfl hmv, finishX_expansion rfl rfl rfl⟩
  · exact finishX_expansion rfl rfl (by rw [addi4spnValue_eq])
  · exact finishX_expansion rfl rfl (by rw [imm6Value_eq])
  · exact finishX_expansion rfl rfl (by rw [imm6Value_eq])
  · exact finishX_expansion rfl rfl (by rw [addi16spValue_eq])
  · exact finishX_expansion rfl rfl (by rw [imm6Value_eq])

/-! ### Statements about one definition -/

theorem onlyPc_retire (s : State) (len : Nat) : OnlyPc s (s.retire len) := by
  simp [OnlyPc, SameX, SameF, SameMem, SameBytes, SameRest]

/-- Settles O37. -/
theorem fencesOnlyAdvance : Obligations.FencesOnlyAdvance := by
  intro s fm pred succ rs1 rd
  exact ⟨⟨_, rfl, onlyPc_retire s 4, advances_retire 4 rfl rfl rfl⟩,
    ⟨_, rfl, onlyPc_retire s 4, advances_retire 4 rfl rfl rfl⟩⟩

/-- Settles O19. -/
theorem environmentCallAndBreakpoint : Obligations.EnvironmentCallAndBreakpoint := by
  intro s
  have hcall (h : s.cfg.envCall = .terminate) :
      s.takeTrap .environmentCall = s.terminate (.record ⟨s.hart, .environmentCall, s.pc⟩) := by
    simp [State.takeTrap, environmentAnswer, State.trapRecord, h]
  have hbreak (h : s.cfg.envBreak = .terminate) :
      s.takeTrap .breakpoint = s.terminate (.record ⟨s.hart, .breakpoint, s.pc⟩) := by
    simp [State.takeTrap, environmentAnswer, State.trapRecord, h]
  exact ⟨rfl, rfl, rfl, fun h => congrArg Host.Outcome.next (hcall h),
    fun h => ⟨congrArg Host.Outcome.next (hbreak h), congrArg Host.Outcome.next (hbreak h)⟩⟩

/-- Settles O15. -/
theorem registerZeroIsHardwired : Obligations.RegisterZeroIsHardwired := by
  intro s r q v
  refine ⟨s.rx_zero, s.wx_zero v, fun hr => ?_, fun hq => s.rx_wx_of_ne v hq⟩
  rw [State.rx_wx_self _ _ hr, lowBits_toNat]

/-- Settles O11. -/
theorem resetInvariant : Obligations.ResetInvariant := by
  refine ⟨rfl, ⟨by decide, rfl, by decide⟩, rfl, (by decide : (0#32).toNat < 256), ⟨rfl, rfl, rfl⟩, fun r hr => ?_⟩
  cases hr

/-- Settles O12. -/
theorem resetValues : Obligations.ResetValues := by
  exact ⟨rfl, rfl, rfl, by decide, by decide, rfl, rfl, rfl, rfl, fun _ => rfl, rfl, rfl, rfl, by decide⟩

/-- Settles O3. -/
theorem decodeSampleWords : Obligations.DecodeSampleWords := by
  exact ⟨rfl, rfl, rfl, rfl, rfl, rfl, rfl, rfl, rfl, rfl, rfl, rfl⟩

/-- A running machine with an admitted configuration and an aligned pc makes a step of what it fetches. -/
theorem step_eq_afterStep {s : State} (hrun : s.status = .running) (hc : configLegal s.cfg = true)
    (hpc : pcAligned s = true) : step s = afterStep (execFetched s s.fetch) := by
  simp [step, hrun, hc, hpc, fetchAndExec]

/-- Settles O4. -/
theorem stepRunsDecoded : Obligations.StepRunsDecoded := by
  intro s code i hrun hc hpc hfetch hdec
  have hstep : step s = afterStep (exec i s) := by
    rw [step_eq_afterStep hrun hc hpc, hfetch]
    simp [execFetched, hdec]
  obtain ⟨t, hexec⟩ : ∃ t, exec i s = .next t := by
    obtain ⟨hraise, hdone⟩ := exec_answers i s
    cases htrap : trapOf i s with
    | some c => exact ⟨_, hraise c htrap⟩
    | none =>
      obtain ⟨t, hnext, -⟩ := hdone htrap
      exact ⟨t, hnext⟩
  exact ⟨t, hexec, by rw [hstep, hexec]; rfl, le_clockAfter _ _, le_clockAfter _ _, rfl⟩

/-- Settles O8: the two codes have no major opcode, or none with a row. -/
theorem undecodableTakesIllegal : Obligations.UndecodableTakesIllegal := by
  refine ⟨fun s code hrun hc hpc hfetch hdec => ?_, fun c p => ⟨?_, ?_, ?_⟩⟩
  · rw [step_eq_afterStep hrun hc hpc, hfetch]
    simp [execFetched, hdec, afterStep]
  · have hraw : decode16Raw c.xlen 0#16 = some (.cAddi4spn 0 0) := by cases c.xlen <;> rfl
    have hzero : ¬ legalInstr c (.cAddi4spn 0 0) = true := fun h => by
      obtain ⟨-, -, hoperands, -⟩ := legalInstr_iff.mp h
      exact Bool.false_ne_true hoperands
    rw [decode, hraw]
    exact if_neg hzero
  · have hop : opcodeF (p ++ 0#16) = 0#7 := by
      apply BitVec.eq_of_toNat_eq
      rw [opcodeF, BitVec.extractLsb'_toNat, BitVec.toNat_append]
      simp [Nat.shiftLeft_eq]
      omega
    have hraw : decode32Raw (p ++ 0#16) = none := by simp [decode32Raw, hop]
    rw [decode, hraw]
    rfl
  · rfl

end Sys2Proof.Machine
end

section
/-!
Instruction fetch: which parcels are read and what they give, and what a fetch sees of bytes placed at the pc.
-/
namespace Sys2Proof.Machine

/-! ### Parcels (R90, R190) -/

theorem parcel_toNat (b0 b1 : Byte) : (parcel b0 b1).toNat = b0.toNat + 256 * b1.toNat := by
  rw [parcel, BitVec.toNat_append, ← Nat.shiftLeft_add_eq_or_of_lt b0.isLt, Nat.shiftLeft_eq]
  omega

/-- Bits 1:0 of a parcel, which tell its length. -/
theorem parcel_low_bits_ne (p : BitVec 16) : (p.extractLsb' 0 2 != 3#2) = true ↔ p.toNat % 4 ≠ 3 := by
  rw [bne_iff_ne, ne_eq, ← BitVec.toNat_inj, BitVec.extractLsb'_toNat]
  simp

/-- The second parcel's bytes are the third and fourth from the pc on. -/
theorem byteAddr_second_parcel (x : Xlen) (a : Word) (i : Nat) :
    byteAddr x (lowBits x (a + 2)) i = byteAddr x a (2 + i) := by
  have ha := a.isLt
  have htwo : (2 : Word).toNat = 2 := rfl
  rw [byteAddr, byteAddr, lowBits_toNat, BitVec.toNat_add, htwo]
  cases x
  · simp only [Xlen.bits]
    omega
  · simp only [Xlen.bits]
    omega

/-- Both bytes of the parcel at an address can be fetched. -/
def parcelFetchable (s : State) (a : Word) : Prop :=
  fetchable s.cfg (byteAddr s.xlen a 0) = true ∧ fetchable s.cfg (byteAddr s.xlen a 1) = true

section
variable {s : State} {a : Word}

theorem fetchParcel_of_fetchable (h : parcelFetchable s a) :
    s.fetchParcel a = some (parcel (s.fetchByte (byteAddr s.xlen a 0)) (s.fetchByte (byteAddr s.xlen a 1))) := by
  obtain ⟨h0, h1⟩ := h
  simp [State.fetchParcel, h0, h1]

theorem fetchParcel_of_not_fetchable (h : ¬ parcelFetchable s a) : s.fetchParcel a = none := by
  unfold parcelFetchable at h
  simp only [State.fetchParcel, Bool.and_eq_true, h, if_false]

/-! ### The fetch (R193) -/

variable {p q : BitVec 16}

theorem fetch_of_half (h : s.fetchParcel s.pc = some p) (hshort : s.cfg.ext.c = true ∧ p.toNat % 4 ≠ 3) :
    s.fetch = .ok (.half p) := by
  obtain ⟨hc, hlow⟩ := hshort
  simp [State.fetch, h, hc, (parcel_low_bits_ne p).mpr hlow]

theorem fetch_of_word (h : s.fetchParcel s.pc = some p) (hlong : ¬ (s.cfg.ext.c = true ∧ p.toNat % 4 ≠ 3))
    (h2 : s.fetchParcel (lowBits s.xlen (s.pc + 2)) = some q) : s.fetch = .ok (.word (q ++ p)) := by
  rw [← parcel_low_bits_ne, ← Bool.and_eq_true_iff, Bool.not_eq_true] at hlong
  simp only [State.fetch, h, hlong, Bool.false_eq_true, if_false, h2]

theorem fetch_of_no_second (h : s.fetchParcel s.pc = some p) (hlong : ¬ (s.cfg.ext.c = true ∧ p.toNat % 4 ≠ 3))
    (h2 : s.fetchParcel (lowBits s.xlen (s.pc + 2)) = none) :
    s.fetch = .error (.instructionAccessFault (lowBits s.xlen (s.pc + 2))) := by
  rw [← parcel_low_bits_ne, ← Bool.and_eq_true_iff, Bool.not_eq_true] at hlong
  simp only [State.fetch, h, hlong, Bool.false_eq_true, if_false, h2]

end

/-- What a fetch gives where the bytes from the pc on are seen as numbers. -/
theorem fetch_of_bytes (s : State) (b : Nat → Byte) (h0 : parcelFetchable s s.pc)
    (hb0 : s.fetchByte (byteAddr s.xlen s.pc 0) = b 0) (hb1 : s.fetchByte (byteAddr s.xlen s.pc 1) = b 1) :
    ((s.cfg.ext.c = true ∧ (b 0).toNat % 4 ≠ 3) →
      s.fetch = .ok (.half (BitVec.ofNat 16 ((b 0).toNat + 256 * (b 1).toNat)))) ∧
    (¬ (s.cfg.ext.c = true ∧ (b 0).toNat % 4 ≠ 3) → parcelFetchable s (lowBits s.xlen (s.pc + 2)) →
      s.fetchByte (byteAddr s.xlen s.pc 2) = b 2 → s.fetchByte (byteAddr s.xlen s.pc 3) = b 3 →
      s.fetch = .ok (.word (BitVec.ofNat 32
        ((b 0).toNat + 256 * (b 1).toNat + 65536 * (b 2).toNat + 16777216 * (b 3).toNat)))) := by
  have hfirst : s.fetchParcel s.pc = some (parcel (b 0) (b 1)) := by rw [fetchParcel_of_fetchable h0, hb0, hb1]
  have hlow : (parcel (b 0) (b 1)).toNat % 4 = (b 0).toNat % 4 := by
    rw [parcel_toNat]
    omega
  rw [← hlow]
  refine ⟨fun hshort => ?_, fun hlong h2 hb2 hb3 => ?_⟩
  · rw [fetch_of_half hfirst hshort, ← parcel_toNat, BitVec.ofNat_toNat, BitVec.setWidth_eq]
  · have hsecond : s.fetchParcel (lowBits s.xlen (s.pc + 2)) = some (parcel (b 2) (b 3)) := by
      rw [fetchParcel_of_fetchable h2, byteAddr_second_parcel, byteAddr_second_parcel, hb2, hb3]
    rw [fetch_of_word hfirst hlong hsecond]
    have hnum : (parcel (b 2) (b 3) ++ parcel (b 0) (b 1)).toNat =
        (b 0).toNat + 256 * (b 1).toNat + 65536 * (b 2).toNat + 16777216 * (b 3).toNat := by
      rw [BitVec.toNat_append, ← Nat.shiftLeft_add_eq_or_of_lt (parcel (b 0) (b 1)).isLt, Nat.shiftLeft_eq, parcel_toNat,
        parcel_toNat]
      omega
    rw [← hnum, BitVec.ofNat_toNat, BitVec.setWidth_eq]

/-- Settles O6: a byte of main memory that was not overwritten is seen as it is. -/
theorem fetchReadsParcels : Obligations.FetchReadsParcels := by
  intro s plain b short h0 h1
  have hbyte {k : Nat} (h : plain k) :
      s.fetchByte (byteAddr s.xlen s.pc k) = readByte s.mem (byteAddr s.xlen s.pc k) := by
    obtain ⟨-, hio, hheld⟩ := h
    exact s.fetchByte_of_current hio hheld
  obtain ⟨hhalf, hword⟩ := fetch_of_bytes s (fun k => readByte s.mem (byteAddr s.xlen s.pc k)) ⟨h0.1, h1.1⟩ (hbyte h0)
    (hbyte h1)
  refine ⟨hhalf, fun hlong h2 h3 => hword hlong ⟨?_, ?_⟩ (hbyte h2) (hbyte h3)⟩
  · rw [byteAddr_second_parcel]
    exact h2.1
  · rw [byteAddr_second_parcel]
    exact h3.1

/-- Settles O7: the first parcel that cannot be fetched is the one reported. -/
theorem fetchAccessFaults : Obligations.FetchAccessFaults := by
  intro s hrun hc hpc whole
  rw [step_eq_afterStep hrun hc hpc]
  refine ⟨fun hnone => ?_, fun hwhole hlong hnone => ?_⟩
  · have hfirst : s.fetchParcel s.pc = none := fetchParcel_of_not_fetchable hnone
    rw [State.fetch, hfirst]
    rfl
  · have hsecond : s.fetchParcel (lowBits s.xlen (s.pc + 2)) = none := fetchParcel_of_not_fetchable hnone
    have hlow (b0 b1 : Byte) : (parcel b0 b1).toNat % 4 = b0.toNat % 4 := by
      rw [parcel_toNat]
      omega
    rw [fetch_of_no_second (fetchParcel_of_fetchable hwhole) (by rwa [hlow]) hsecond]
    rfl

/-! ### Bytes placed at the pc (R862) -/

/-- The values an address held before are forgotten for the placed address only. -/
theorem heldBytes_filter (l : List Host.Cell) (a c : Nat) :
    heldBytes (l.filter fun e => e.1 != a) c = if c = a then [] else heldBytes l c := by
  induction l with
  | nil => simp [heldBytes]
  | cons e l ih =>
    obtain ⟨k, b⟩ := e
    by_cases hk : k = a
    · subst hk
      by_cases hc : k = c
      · subst hc
        simpa using ih
      · simpa [heldBytes, hc] using ih
    · by_cases hc : k = c
      · subst hc
        simp [ih, heldBytes, hk]
      · simp [ih, heldBytes, hk, hc]

/-- A placed byte is in memory with no earlier value; at other addresses nothing changes. -/
theorem State.placeByte_sees (s : State) (a : Nat) (b : Byte) (c : Nat) :
    readByte (s.placeByte a b).mem c = (if c = a then b else readByte s.mem c) ∧
      heldBytes (s.placeByte a b).stale c = if c = a then [] else heldBytes s.stale c :=
  ⟨readByte_writeByte s.mem a c b, heldBytes_filter s.stale a c⟩

/-- Bytes less than 2 ^ 32 apart have different addresses. -/
theorem byteAddr_inj {x : Xlen} {a : Word} {i j : Nat} (hi : i < 2 ^ 32) (hj : j < 2 ^ 32)
    (h : byteAddr x a i = byteAddr x a j) : i = j := by
  unfold byteAddr at h
  cases x <;> simp only [Xlen.bits] at h <;> omega

section
variable (s : State)

theorem State.placeBytes_cfg (i : Nat) (l : List Byte) : (s.placeBytes i l).cfg = s.cfg := by
  induction l generalizing s i with
  | nil => rfl
  | cons b l ih => exact ih _ _

theorem State.placeBytes_pc (i : Nat) (l : List Byte) : (s.placeBytes i l).pc = s.pc := by
  induction l generalizing s i with
  | nil => rfl
  | cons b l ih => exact ih _ _

/-- Placing bytes from the i-th address on changes nothing before it, and puts each byte at its address. -/
theorem State.placeBytes_sees (i : Nat) (l : List Byte) (k : Nat) (hi : i + l.length ≤ 2 ^ 32) (hk : k < i + l.length) :
    (k < i → readByte (s.placeBytes i l).mem (byteAddr s.xlen s.pc k) = readByte s.mem (byteAddr s.xlen s.pc k) ∧
      heldBytes (s.placeBytes i l).stale (byteAddr s.xlen s.pc k) = heldBytes s.stale (byteAddr s.xlen s.pc k)) ∧
    (∀ b, i ≤ k → l[k - i]? = some b → readByte (s.placeBytes i l).mem (byteAddr s.xlen s.pc k) = b ∧
      heldBytes (s.placeBytes i l).stale (byteAddr s.xlen s.pc k) = []) := by
  induction l generalizing s i with
  | nil => exact ⟨fun _ => ⟨rfl, rfl⟩, fun b _ hb => by simp at hb⟩
  | cons b l ih =>
    rw [List.length_cons] at hi hk
    obtain ⟨hbefore, hat⟩ := ih (s.placeByte (byteAddr s.xlen s.pc i) b) (i + 1) (by omega) (by omega)
    obtain ⟨hmem, hheld⟩ := s.placeByte_sees (byteAddr s.xlen s.pc i) b (byteAddr s.xlen s.pc k)
    refine ⟨fun hki => ?_, fun d hik hd => ?_⟩
    · have hne : byteAddr s.xlen s.pc k ≠ byteAddr s.xlen s.pc i := fun h =>
        hki.ne (byteAddr_inj (by omega) (by omega) h)
      rw [if_neg hne] at hmem hheld
      obtain ⟨hmem', hheld'⟩ := hbefore (by omega)
      exact ⟨hmem'.trans hmem, hheld'.trans hheld⟩
    · obtain rfl | hlt := hik.eq_or_lt
      · rw [if_pos rfl] at hmem hheld
        obtain ⟨hmem', hheld'⟩ := hbefore (by omega)
        rw [Nat.sub_self, List.getElem?_cons_zero, Option.some.injEq] at hd
        exact ⟨(hmem'.trans hmem).trans hd, hheld'.trans hheld⟩
      · refine hat d hlt ?_
        rwa [show k - i = k - (i + 1) + 1 by omega, List.getElem?_cons_succ] at hd

end

theorem extract_byte_zero (w : BitVec 32) (i : Nat) :
    (w.extractLsb' i 16).extractLsb' 0 8 = BitVec.ofNat 8 (w.toNat / 2 ^ i) := by
  apply BitVec.eq_of_toNat_eq
  simp only [BitVec.extractLsb'_toNat, Nat.shiftRight_eq_div_pow, BitVec.toNat_ofNat]
  omega

theorem extract_byte_one (w : BitVec 32) (i : Nat) :
    (w.extractLsb' i 16).extractLsb' 8 8 = BitVec.ofNat 8 (w.toNat / 2 ^ (i + 8)) := by
  apply BitVec.eq_of_toNat_eq
  simp only [BitVec.extractLsb'_toNat, Nat.shiftRight_eq_div_pow, BitVec.toNat_ofNat, pow_add, ← Nat.div_div_eq_div_mul]
  omega

/-- The bytes of an instruction word, least significant first. -/
theorem word_bytes_getElem? (w : BitVec 32) {k : Nat} (hk : k < 4) :
    (Code.word w).bytes[k]? = some (BitVec.ofNat 8 (w.toNat / 2 ^ (8 * k))) := by
  have hlist : (Code.word w).bytes = [BitVec.ofNat 8 (w.toNat / 2 ^ 0), BitVec.ofNat 8 (w.toNat / 2 ^ 8),
      BitVec.ofNat 8 (w.toNat / 2 ^ 16), BitVec.ofNat 8 (w.toNat / 2 ^ 24)] := by
    simp only [Code.bytes, parcelBytes, List.cons_append, List.nil_append, extract_byte_zero, extract_byte_one]
  rw [hlist]
  interval_cases k
  · rfl
  · rfl
  · rfl
  · rfl

/-- What the next fetch sees of a placed word: its bytes, where they are in main memory. -/
theorem State.withFetchWord_fetchByte (s : State) {nbits w k : Nat} (hbits : nbits ≤ 32) (hw : w < 2 ^ nbits) (hk : k < 4)
    (hio : isIo s.cfg (byteAddr s.xlen s.pc k) = false) :
    (s.withFetchWord nbits w).fetchByte (byteAddr s.xlen s.pc k) = BitVec.ofNat 8 (w / 2 ^ (8 * k)) := by
  have hword : (BitVec.ofNat 32 (w % 2 ^ nbits)).toNat = w := by
    rw [BitVec.toNat_ofNat, Nat.mod_eq_of_lt hw, Nat.mod_eq_of_lt (hw.trans_le (Nat.pow_le_pow_right (by decide) hbits))]
  have hlen : (Code.word (BitVec.ofNat 32 (w % 2 ^ nbits))).bytes.length = 4 := rfl
  obtain ⟨-, hat⟩ := s.placeBytes_sees 0 (Code.word (BitVec.ofNat 32 (w % 2 ^ nbits))).bytes k (by omega) (by omega)
  obtain ⟨hmem, hheld⟩ := hat _ (Nat.zero_le k) (word_bytes_getElem? _ hk)
  have hcfg : (s.withFetchWord nbits w).cfg = s.cfg := s.placeBytes_cfg _ _
  rw [hword] at hmem
  exact (State.fetchByte_of_current (s.withFetchWord nbits w) (by rwa [hcfg]) hheld).trans hmem

/-- Settles O9: the placed bytes are current and never overwritten, so the fetch sees them. -/
theorem placedWordIsFetched : Obligations.PlacedWordIsFetched := by
  intro s nbits w hbits hw plain short h0 h1
  have hcfg : (s.withFetchWord nbits w).cfg = s.cfg := s.placeBytes_cfg _ _
  have hpc : (s.withFetchWord nbits w).pc = s.pc := s.placeBytes_pc _ _
  have hxlen : (s.withFetchWord nbits w).xlen = s.xlen := congrArg Config.xlen hcfg
  have hbyte {k : Nat} (hk : k < 4) (h : plain k) :
      (s.withFetchWord nbits w).fetchByte (byteAddr s.xlen s.pc k) = BitVec.ofNat 8 (w / 2 ^ (8 * k)) :=
    s.withFetchWord_fetchByte hbits hw hk h.2
  have hw32 : w < 2 ^ 32 := hw.trans_le (Nat.pow_le_pow_right (by decide) hbits)
  have hfetch := fetch_of_bytes (s.withFetchWord nbits w) fun k => BitVec.ofNat 8 (w / 2 ^ (8 * k))
  simp only [parcelFetchable, hcfg, hpc, hxlen, byteAddr_second_parcel] at hfetch
  obtain ⟨hhalf, hlong⟩ := hfetch ⟨h0.1, h1.1⟩ (hbyte (by decide) h0) (hbyte (by decide) h1)
  have hlow : (BitVec.ofNat 8 (w / 2 ^ (8 * 0))).toNat % 4 = w % 4 := by
    rw [BitVec.toNat_ofNat]
    omega
  rw [hlow] at hhalf hlong
  refine ⟨fun hshort => ?_, fun hnot h2 h3 => ?_⟩
  · rw [hhalf hshort]
    congr 2
    apply BitVec.eq_of_toNat_eq
    simp only [BitVec.toNat_ofNat]
    omega
  · rw [hlong hnot ⟨h2.1, h3.1⟩ (hbyte (by decide) h2) (hbyte (by decide) h3)]
    congr 2
    apply BitVec.eq_of_toNat_eq
    simp only [BitVec.toNat_ofNat]
    omega

end Sys2Proof.Machine
end

section
/-!
Traps: what the environment's answer leaves of the state and of what a fetch may see.
-/
namespace Sys2Proof.Machine

/-! ### Stores of the environment (R805, R810) -/

/-- One store as the list of stores makes it. -/
theorem State.storeBytes_cons (s : State) (c : Nat × Byte) (l : List (Nat × Byte)) :
    s.storeBytes (c :: l) = (if isIo s.cfg c.1 then s else s.storeByte c.1 c.2).storeBytes l := rfl

theorem State.readByte_store (s : State) (c : Nat × Byte) (a : Nat) (hio : isIo s.cfg a = false) :
    readByte (if isIo s.cfg c.1 then s else s.storeByte c.1 c.2).mem a = if c.1 = a then c.2 else readByte s.mem a := by
  by_cases ha : c.1 = a
  · rw [ha, hio, if_neg Bool.false_ne_true, State.storeByte_mem, readByte_writeByte, if_pos rfl]
  · rw [if_neg ha]
    split
    · rfl
    · rw [State.storeByte_mem, readByte_writeByte, if_neg (Ne.symm ha)]

/-- The last store to an address of main memory decides its byte. -/
theorem State.readByte_storeBytes (s : State) (l : List (Nat × Byte)) {a : Nat} (hio : isIo s.cfg a = false) :
    readByte (s.storeBytes l).mem a = ((l.reverse.find? fun c => c.1 == a).map Prod.snd).getD (readByte s.mem a) := by
  induction l generalizing s with
  | nil => rfl
  | cons c l ih =>
    have hcfg : (if isIo s.cfg c.1 then s else s.storeByte c.1 c.2).cfg = s.cfg := by split <;> rfl
    rw [State.storeBytes_cons, ih _ (by rwa [hcfg]), s.readByte_store c a hio, List.reverse_cons, List.find?_append]
    cases l.reverse.find? fun c => c.1 == a with
    | some d => rfl
    | none => by_cases ha : c.1 = a <;> simp [ha]

/-! ### What a fetch may see (R71, D21) -/

/-- The values a fetch may see of an address of main memory: the current one, and those held since the last FENCE.I. -/
def State.Sees (s : State) (a : Nat) (b : Byte) : Prop := b = readByte s.mem a ∨ b ∈ heldBytes s.stale a

theorem mem_heldBytes_storeByte_iff (s : State) (a c : Nat) (b d : Byte) : d ∈ heldBytes (s.storeByte a b).stale c ↔
    d ∈ heldBytes s.stale c ∨ (a = c ∧ d = readByte s.mem c ∧ d ≠ b) := by
  by_cases ha : a = c
  · subst ha
    simp [mem_heldBytes_storeByte]
  · simp only [State.storeByte, ha, false_and, or_false]
    split
    · rfl
    · simp [heldBytes, ha]

/-- A store takes nothing away from what a fetch may see. -/
theorem State.Sees.storeByte {s : State} {c : Nat} {d : Byte} (h : s.Sees c d) (a : Nat) (b : Byte) :
    (s.storeByte a b).Sees c d := by
  unfold State.Sees at h ⊢
  rw [mem_heldBytes_storeByte_iff, State.storeByte_mem, readByte_writeByte]
  obtain rfl | h := h
  · by_cases ha : c = a
    · subst ha
      rw [if_pos rfl]
      by_cases hb : readByte s.mem c = b
      · exact .inl hb
      · exact .inr (.inr ⟨rfl, rfl, hb⟩)
    · exact .inl (if_neg ha).symm
  · exact .inr (.inl h)

theorem State.Sees.storeBytes {s : State} {c : Nat} {d : Byte} (h : s.Sees c d) (l : List (Nat × Byte)) :
    (s.storeBytes l).Sees c d := by
  induction l generalizing s with
  | nil => exact h
  | cons e l ih =>
    rw [State.storeBytes_cons]
    split
    · exact ih h
    · exact ih (h.storeByte ..)

/-- What stores make an earlier value was seen before, or was stored. -/
theorem State.heldBytes_storeBytes (s : State) (l : List (Nat × Byte)) {c : Nat} {d : Byte}
    (h : d ∈ heldBytes (s.storeBytes l).stale c) : s.Sees c d ∨ (c, d) ∈ l := by
  induction l generalizing s with
  | nil => exact .inl (.inr h)
  | cons e l ih =>
    obtain ⟨a, b⟩ := e
    rw [State.storeBytes_cons] at h
    split at h
    · exact (ih s h).imp_right (List.mem_cons_of_mem _)
    · obtain hsees | hmem := ih _ h
      · unfold State.Sees at hsees
        rw [mem_heldBytes_storeByte_iff, State.storeByte_mem, readByte_writeByte] at hsees
        obtain hd | hd | ⟨-, hd, -⟩ := hsees
        · split at hd
          case isTrue hc => exact .inr (by rw [hc, hd]; exact List.mem_cons_self)
          case isFalse => exact .inl (.inl hd)
        · exact .inl (.inr hd)
        · exact .inl (.inl hd)
      · exact .inr (List.mem_cons_of_mem _ hmem)

/-! ### Trap entry and return -/

theorem State.takeTrap_of_answer_terminate {s : State} {c : Cause} {r : Report}
    (h : environmentAnswer s (s.trapRecord c) = .terminate r) : s.takeTrap c = s.terminate r := by
  rw [State.takeTrap, h]

theorem State.takeTrap_of_answer_resume {s : State} {c : Cause} {e : EnvEffect}
    (h : environmentAnswer s (s.trapRecord c) = .resume e) : s.takeTrap c = s.resume e := by
  rw [State.takeTrap, h]

section
variable (s : State) (e : EnvEffect)

theorem State.resume_rx_toNat {r : RegNum} (hr : r ≠ 0) :
    ((s.resume e).rx r).toNat = (e.x[r.toNat]'r.isLt).toNat % 2 ^ s.xlen.bits := by
  rw [State.rx, if_neg hr]
  simp [lowBits_toNat]

theorem State.resume_f_toNat (r : Fin 32) : (s.resume e).f[r].toNat = e.f[r].toNat % 2 ^ s.flen := by
  simp [lowF_toNat _ s.flen_le]

/-- The bytes stored for the hart, with addresses brought into the address space. -/
theorem find?_storesIn (x : Xlen) (a : Nat) : (e.storesIn x).reverse.find? (fun c => c.1 == a) =
    (e.stores.reverse.find? fun c => c.1 % 2 ^ x.bits == a).map fun c => (c.1 % 2 ^ x.bits, c.2) := by
  rw [EnvEffect.storesIn, ← List.map_reverse, List.find?_map]
  rfl

theorem State.readByte_resume (a : Nat) : readByte (s.resume e).mem a = if isIo s.cfg a then readByte s.mem a else
    ((e.stores.reverse.find? fun c => c.1 % 2 ^ s.xlen.bits == a).map Prod.snd).getD (readByte s.mem a) := by
  rw [State.resume_mem]
  cases hio : isIo s.cfg a with
  | true => exact s.readByte_storeBytes_of_isIo _ hio
  | false =>
    rw [if_neg Bool.false_ne_true, s.readByte_storeBytes _ hio, find?_storesIn, Option.map_map]
    rfl

end

/-- Settles O18: the policy picks the answer; the resumed state is the answer, cut to the widths. -/
theorem trapEntryAndReturn : Obligations.TrapEntryAndReturn := by
  constructor
  · intro s c record policy asked
    have hanswer : environmentAnswer s record = if policy = .terminate then .terminate (.record record) else asked := by
      cases c <;> simp only [environmentAnswer, record, policy, asked] <;> split <;> simp_all
    refine ⟨fun h => State.takeTrap_of_answer_terminate (hanswer.trans (if_pos h)), fun h => ?_⟩
    have hasked : environmentAnswer s record = asked := by rw [hanswer, h]; rfl
    cases ha : asked with
    | terminate r => exact State.takeTrap_of_answer_terminate (hasked.trans ha)
    | resume e => exact State.takeTrap_of_answer_resume (hasked.trans ha)
  · intro s e t stored
    refine ⟨?_, fun r hr => s.resume_rx_toNat e hr, s.resume_f_toNat e, fcsr_low_byte_toNat _, fun a => ?_, ?_, rfl, rfl,
      fun h => ?_, fun h a b => ⟨fun hb => ?_, fun hb => ?_⟩, s.resume_cfg e, s.resume_status e, s.resume_cycle e,
      s.resume_time e, s.resume_hpm e, s.resume_draws e, s.resume_hart e⟩
    · rw [State.resume_pc, alignPc_toNat, lowBits_toNat]
    · rw [s.readByte_resume e a]
      dsimp only [stored]
      cases e.stores.reverse.find? fun c => c.1 % 2 ^ s.xlen.bits == a <;> rfl
    · simp [t, State.resume]
    · simp [t, h]
    · have hsees : (s.storeBytes (e.storesIn s.xlen)).Sees a b := State.Sees.storeBytes hb _
      simpa [t, h, State.Sees] using hsees
    · have hheld : b ∈ heldBytes (s.storeBytes (e.storesIn s.xlen)).stale a := by simpa [t, h] using hb
      obtain hsees | hmem := s.heldBytes_storeBytes _ hheld
      · exact hsees.imp_right .inl
      · obtain ⟨c, hc, heq⟩ := List.mem_map.mp hmem
        obtain ⟨ha, hb⟩ := Prod.mk.inj heq
        exact .inr (.inr ⟨c, hc, ha, hb⟩)

end Sys2Proof.Machine
end

section
/-!
The CSR instructions, which CSRs exist, and the counters.
-/
namespace Sys2Proof.Machine

/-! ### Reads and writes of a CSR as numbers -/

theorem State.csrRead_toNat (s : State) (c : Csr) : (s.csrRead c).toNat = s.csrNumber c := by
  obtain ⟨-, -, -, hfcsr, -, -, hfrm, hflags⟩ := fcsrReservedBits s 0
  cases c with
  | fflags => exact BitVec.toNat_setWidth_of_le (by decide)
  | frm => exact BitVec.toNat_setWidth_of_le (by decide)
  | fcsr =>
    rw [hfcsr, State.csrNumber, hfrm, hflags]
    omega
  | counter j => exact lowBits_toNat ..
  | counterH j => simp [State.csrRead, State.csrNumber, Nat.shiftRight_eq_div_pow]

/-- A write keeps the bits of its CSR; no CSR has a bit above the XLEN there are. -/
theorem State.csrWrite_toNat (s : State) (c : Csr) (v : Word) :
    (s.csrWrite c (lowBits s.xlen v)).fcsr.toNat = s.fcsrWritten v.toNat c := by
  obtain ⟨hfcsr, hfrm, hflags, -⟩ := fcsrReservedBits s (lowBits s.xlen v)
  have hmod {k : Nat} (hk : k ≤ 32) : (lowBits s.xlen v).toNat % 2 ^ k = v.toNat % 2 ^ k := by
    rw [lowBits_toNat, Nat.mod_mod_of_dvd _ (Nat.pow_dvd_pow 2 (hk.trans (by cases s.xlen <;> decide)))]
  cases c with
  | fflags => exact hflags.trans (congrArg (s.frm.toNat * 32 + ·) (hmod (k := 5) (by decide)))
  | frm => exact hfrm.trans (congrArg (· * 32 + s.fflags.toNat) (hmod (k := 3) (by decide)))
  | fcsr => exact hfcsr.trans (hmod (k := 8) (by decide))
  | counter | counterH => rfl

/-! ### The six instructions -/

section
variable {i : Instr} {s : State} {rd : RegNum} {csr : BitVec 12} {reads writes : Bool} {new : Word → Word}

/-- The state after an access that passes its checks; where rd is x0 it does not matter whether the CSR is read. -/
theorem csrDone_of_run (c : Csr) (hrd : reads = true ∨ rd = 0) :
    CsrDone s ((if reads then
        (if writes then s.csrWrite c (lowBits s.xlen (new (s.csrRead c))) else s).wx rd (s.csrRead c)
      else if writes then s.csrWrite c (lowBits s.xlen (new (s.csrRead c))) else s).retire 4) rd c
      (if writes then some (new (s.csrRead c)).toNat else none) := by
  generalize hu : (if writes then s.csrWrite c (lowBits s.xlen (new (s.csrRead c))) else s) = u
  have hread : (if reads then u.wx rd (s.csrRead c) else u) = u.wx rd (s.csrRead c) := by
    obtain rfl | rfl := hrd
    · rfl
    · simp
  have hxlen : u.xlen = s.xlen := by rw [← hu]; split <;> simp
  have hrx (r : RegNum) : u.rx r = s.rx r := by rw [← hu]; split <;> simp
  rw [hread]
  refine ⟨holdsX_of_rx_eq (State.retire_rx ..) hxlen (by rw [s.csrRead_toNat]), fun r hr => by simp [hr, hrx], ?_⟩
  refine ⟨?_, ?_, ?_⟩
  · simp only [SameF, ← hu]
    split <;> simp
  · rw [State.retire_fcsr, State.wx_fcsr, ← hu]
    cases writes
    · rfl
    · exact s.csrWrite_toNat c _
  · simp only [SameMem, SameBytes, SameRest, ← hu]
    split <;> simp [advances_retire]

theorem csrAnswer_of_csrAccess {write : Nat → Option Nat} (hi : exec i s = csrAccess s i rd csr reads writes new)
    (hrd : reads = true ∨ rd = 0)
    (hwrite : ∀ old : Word, write old.toNat = if writes then some (new old).toNat else none) :
    CsrAnswer i s rd csr write := by
  refine ⟨fun hnone => hi.trans (csrAccess_of_trap rd new (by simp [csrTrap, hnone])), fun c hc => ?_⟩
  have hw := hwrite (s.csrRead c)
  rw [s.csrRead_toNat] at hw
  have hsome : (write (s.csrNumber c)).isSome = writes := by rw [hw]; cases writes <;> rfl
  rw [hsome]
  refine ⟨fun ⟨hro, hwr⟩ => hi.trans (csrAccess_of_trap rd new (by simp [csrTrap, hc, hro, hwr])), fun hok => ?_⟩
  obtain ⟨hbad, -⟩ | ⟨d, hd, -, hrun⟩ := csrAccess_cases s i rd csr reads writes new
  · obtain hnone | ⟨d, hd, hwr, hro⟩ := hbad
    · cases hc.symm.trans hnone
    · obtain rfl := Option.some.inj (hc.symm.trans hd)
      exact absurd ⟨hro, hwr⟩ hok
  · obtain rfl := Option.some.inj (hc.symm.trans hd)
    rw [hw]
    exact ⟨_, hi.trans hrun, csrDone_of_run c hrd⟩

end

theorem toNat_and_not (x y : Word) : (x &&& ~~~ y).toNat = x.toNat ^^^ (x.toNat &&& y.toNat) := by
  rw [← BitVec.toNat_and, ← BitVec.toNat_xor]
  congr 1
  ext k hk
  simp only [BitVec.getElem_and, BitVec.getElem_not, BitVec.getElem_xor]
  cases x[k] <;> cases y[k] <;> rfl

theorem toNat_uimm (u : BitVec 5) : (u.setWidth 64).toNat = u.toNat :=
  BitVec.toNat_setWidth_of_le (by decide)

/-- Settles O43. -/
theorem csrInstructions : Obligations.CsrInstructions := by
  intro s rd rs1 uimm csr x u
  have hrd : (rd != 0) = true ∨ rd = 0 := (ne_or_eq rd 0).imp_left bne_iff_ne.mpr
  refine ⟨csrAnswer_of_csrAccess (exec_csrrw ..) ?_ fun _ => rfl,
    csrAnswer_of_csrAccess (exec_csrrs ..) (.inl rfl) fun old => ?_,
    csrAnswer_of_csrAccess (exec_csrrc ..) (.inl rfl) fun old => ?_, csrAnswer_of_csrAccess (exec_csrrwi ..) ?_ fun _ => ?_,
    csrAnswer_of_csrAccess (exec_csrrsi ..) (.inl rfl) fun old => ?_,
    csrAnswer_of_csrAccess (exec_csrrci ..) (.inl rfl) fun old => ?_⟩
  · exact hrd
  · by_cases h : rs1 = 0 <;> simp [h, x]
  · rw [toNat_and_not]
    by_cases h : rs1 = 0 <;> simp [h, x]
  · exact hrd
  · rw [toNat_uimm]
    rfl
  · rw [BitVec.toNat_or, toNat_uimm]
    by_cases h : uimm = 0 <;> simp [h, u]
  · rw [toNat_and_not, toNat_uimm]
    by_cases h : uimm = 0 <;> simp [h, u]

/-! ### Which CSRs exist (R41, R492) -/

/-- Table R41-T by the number of the address. -/
theorem csrName_cases (a : BitVec 12) :
    (a.toNat = 1 ∧ csrName a = some .fflags) ∨ (a.toNat = 2 ∧ csrName a = some .frm) ∨
      (a.toNat = 3 ∧ csrName a = some .fcsr) ∨
      (a.toNat / 32 = 0x60 ∧ csrName a = some (.counter (BitVec.ofNat 5 (a.toNat % 32)))) ∨
      (a.toNat / 32 = 0x64 ∧ csrName a = some (.counterH (BitVec.ofNat 5 (a.toNat % 32)))) ∨
      ((a.toNat < 1 ∨ 3 < a.toNat) ∧ a.toNat / 32 ≠ 0x60 ∧ a.toNat / 32 ≠ 0x64 ∧ csrName a = none) := by
  have hlow : a.extractLsb' 0 5 = BitVec.ofNat 5 (a.toNat % 32) :=
    BitVec.eq_of_toNat_eq (by simp [BitVec.extractLsb'_toNat])
  have hhigh (k : BitVec 7) : a.extractLsb' 5 7 = k ↔ a.toNat / 32 = k.toNat := by
    rw [← BitVec.toNat_inj, BitVec.extractLsb'_toNat, Nat.shiftRight_eq_div_pow,
      Nat.mod_eq_of_lt (by have := a.isLt; omega)]
  have hnum (k : BitVec 12) : a = k ↔ a.toNat = k.toNat := BitVec.toNat_inj.symm
  unfold csrName
  rw [hlow]
  simp only [hhigh, hnum, BitVec.toNat_ofNat]
  split
  · simp [*]
  split
  · simp [*]
  split
  · simp [*]
  split
  · simp [*]
  split
  · simp [*]
  · simp [*]
    omega

theorem csrAt_isSome_iff {c : Config} {a : BitVec 12} : (csrAt c a).isSome = true ↔
    ∃ r, csrName a = some r ∧ r.present c = true := by
  rw [csrAt, Option.isSome_iff_exists]
  simp only [Option.filter_eq_some_iff]

theorem counterImplemented_iff (c : Config) {n : Nat} (hn : n < 32) : counterImplemented c (BitVec.ofNat 5 n) = true ↔
    n < 3 ∨ c.hpmImplemented.getLsbD n = true := by
  simp [counterImplemented, Nat.mod_eq_of_lt hn]

/-- Settles O44: one case for each row of Table R41-T. -/
theorem csrExistence : Obligations.CsrExistence := by
  intro c a counters implemented
  refine ⟨?_, fun hf => ?_⟩
  · have himpl {base : Nat} (hbase : base % 32 = 0) (ha : a.toNat / 32 = base / 32) :
        counterImplemented c (BitVec.ofNat 5 (a.toNat % 32)) = true ↔ implemented base := by
      have hsub : a.toNat - base = a.toNat % 32 := by omega
      have hlow : a.toNat < base + 3 ↔ a.toNat % 32 < 3 := by omega
      have hrange : base ≤ a.toNat ∧ a.toNat < base + 32 := by omega
      simp only [counterImplemented_iff c (Nat.mod_lt a.toNat (show 0 < 32 by decide)), implemented, hsub, hlow, hrange,
        true_and]
    rw [csrAt_isSome_iff]
    obtain ⟨ha, h⟩ | ⟨ha, h⟩ | ⟨ha, h⟩ | ⟨ha, h⟩ | ⟨ha, h⟩ | ⟨hsmall, hlow, hhigh, h⟩ := csrName_cases a
    · simp [h, Csr.present, ha, implemented]
    · simp [h, Csr.present, ha, implemented]
    · simp [h, Csr.present, ha, implemented]
    · have hother : ¬ implemented 0xC80 := by simp only [implemented]; omega
      have hbig : ¬ a.toNat ≤ 3 := by omega
      simp [h, Csr.present, himpl (base := 0xC00) rfl ha, hother, hbig, counters, and_assoc]
    · have hother : ¬ implemented 0xC00 := by simp only [implemented]; omega
      have hbig : ¬ a.toNat ≤ 3 := by omega
      simp [h, Csr.present, himpl (base := 0xC80) rfl ha, hother, hbig, counters, and_assoc,
        and_comm (a := implemented 0xC80)]
    · have hC00 : ¬ implemented 0xC00 := by simp only [implemented]; omega
      have hC80 : ¬ implemented 0xC80 := by simp only [implemented]; omega
      have hfloat : ¬ (1 ≤ a.toNat ∧ a.toNat ≤ 3 ∧ c.ext.f = true) := by omega
      simp [h, hC00, hC80, hfloat]
  · simp [csrAt, csrName, Csr.present, hf]

/-! ### The counters (R46, R47, R505) -/

theorem csrName_counter : ∀ j : Fin 32,
    csrName (BitVec.ofNat 12 (0xC00 + j.val)) = some (.counter (BitVec.ofNat 5 j.val)) ∧
      csrName (BitVec.ofNat 12 (0xC80 + j.val)) = some (.counterH (BitVec.ofNat 5 j.val)) := by
  decide

/-- The addresses from 0xC00 to 0xC9F name counters, if anything. -/
theorem readOnly_of_csrAt {c : Config} {a : BitVec 12} {r : Csr} (ha : 0xC00 ≤ a.toNat) (hr : csrAt c a = some r) :
    r.readOnly = true := by
  have hname : csrName a = some r := (Option.filter_eq_some_iff.mp hr).1
  obtain ⟨h, -⟩ | ⟨h, -⟩ | ⟨h, -⟩ | ⟨-, h⟩ | ⟨-, h⟩ | ⟨-, -, -, h⟩ := csrName_cases a
  · omega
  · omega
  · omega
  all_goals cases hname.symm.trans h
  · rfl
  · rfl

theorem State.hpmValue_toNat (s : State) {j : BitVec 5} {k : Fin 29} (hj : j.toNat = 3 + k.val) :
    (s.hpmValue j).toNat = s.hpm[k].toNat % 2 ^ s.cfg.hpmWidth := by
  have hnum : j.toNat - 3 = k.val := by omega
  have hlt : s.hpm[k].toNat % 2 ^ s.cfg.hpmWidth < 2 ^ 64 := (Nat.mod_le _ _).trans_lt (s.hpm[k]).isLt
  simp only [State.hpmValue, hnum, k.isLt, dite_true, BitVec.toNat_ofNat]
  exact Nat.mod_eq_of_lt hlt

theorem State.counter_toNat_hpm (s : State) {j : BitVec 5} {k : Fin 29} (hj : j.toNat = 3 + k.val) :
    (s.counter j).toNat = s.hpm[k].toNat % 2 ^ s.cfg.hpmWidth := by
  have hne (b : BitVec 5) (hb : b.toNat < 3) : j ≠ b := fun h => by
    rw [h] at hj
    omega
  rw [← s.hpmValue_toNat hj, State.counter, if_neg (hne 0 (by decide)), if_neg (hne 1 (by decide)),
    if_neg (hne 2 (by decide))]

section
variable {s : State} {rd : RegNum}

/-- A read of a counter that exists: rd receives the value and nothing else changes. -/
theorem completes_of_counterRead {csr : BitVec 12} {c : Csr} {n : Nat} (hname : csrName csr = some c)
    (hpresent : c.present s.cfg = true) (hn : s.csrNumber c % 2 ^ s.xlen.bits = n % 2 ^ s.xlen.bits) :
    Completes (.csrrs rd csr 0) s fun t => XResult s t 4 rd n := by
  obtain ⟨-, hread, -⟩ := csrInstructions s rd 0 0 csr
  obtain ⟨t, hexec, hholds, hx, hf, hfcsr, hframe⟩ :=
    (hread.2 c (Option.filter_eq_some_iff.mpr ⟨hname, hpresent⟩)).2 (by simp)
  refine ⟨t, hexec, ?_, hx, hf, BitVec.eq_of_toNat_eq hfcsr, hframe⟩
  rw [HoldsX] at hholds ⊢
  rw [hholds]
  norm_cast
  rw [hn]

/-- The number of a counter read by its low XLEN bits and, at XLEN = 32, by its high 32. -/
theorem counter_completes (hext : s.cfg.ext.counters = true) (hacc : s.cfg.countersAccessible = true) (j : Fin 32)
    (himpl : counterImplemented s.cfg (BitVec.ofNat 5 j.val) = true) {n : Nat}
    (hn : (s.counter (BitVec.ofNat 5 j.val)).toNat = n) :
    (Completes (.csrrs rd (BitVec.ofNat 12 (0xC00 + j.val)) 0) s fun t => XResult s t 4 rd n) ∧
      (s.cfg.xlen = .rv32 →
        Completes (.csrrs rd (BitVec.ofNat 12 (0xC80 + j.val)) 0) s fun t => XResult s t 4 rd (n / 2 ^ 32 : Nat)) := by
  obtain ⟨hlow, hhigh⟩ := csrName_counter j
  refine ⟨completes_of_counterRead hlow (by simp only [Csr.present, hext, hacc, himpl, Bool.and_self]) ?_, fun hxlen =>
    completes_of_counterRead hhigh
      (by simp only [Csr.present, hext, hacc, himpl, hxlen, Bool.and_self, beq_self_eq_true]) ?_⟩
  · rw [State.csrNumber, hn, Nat.mod_mod]
  · rw [State.csrNumber, hn]

end

/-- Settles O45: every counter reads as `counter_completes` says, and every address from 0xC00 on is read-only. -/
theorem countersAreReadOnly : Obligations.CountersAreReadOnly := by
  constructor
  · intro s rd hext hacc
    have hbase (j : Fin 32) (hj : j.val < 3) : counterImplemented s.cfg (BitVec.ofNat 5 j.val) = true :=
      (counterImplemented_iff _ j.isLt).mpr (.inl hj)
    obtain ⟨hcycle, hcycleh⟩ := counter_completes (rd := rd) hext hacc 0 (hbase 0 (by decide)) rfl
    obtain ⟨htime, htimeh⟩ := counter_completes (rd := rd) hext hacc 1 (hbase 1 (by decide)) rfl
    obtain ⟨hinstret, hinstreth⟩ := counter_completes (rd := rd) hext hacc 2 (hbase 2 (by decide)) rfl
    refine ⟨hcycle, htime, hinstret, fun hx => ⟨hcycleh hx, htimeh hx, hinstreth hx⟩, fun k himpl => ?_⟩
    have hk : 3 + k.val < 32 := by omega
    have h := counter_completes (rd := rd) hext hacc ⟨3 + k.val, hk⟩
      ((counterImplemented_iff _ hk).mpr (.inr himpl))
      (s.counter_toNat_hpm (j := BitVec.ofNat 5 (3 + k.val)) (k := k) (Nat.mod_eq_of_lt hk))
    simpa only [← Nat.add_assoc] using h
  · intro s rd rs1 uimm csr hlow _ hat
    obtain ⟨c, hc⟩ := Option.isSome_iff_exists.mp hat
    have hro : c.readOnly = true := readOnly_of_csrAt hlow hc
    obtain ⟨hrw, hrs, hrc, hrwi, hrsi, hrci⟩ := csrInstructions s rd rs1 uimm csr
    refine ⟨(hrw.2 c hc).1 ⟨hro, rfl⟩, (hrwi.2 c hc).1 ⟨hro, rfl⟩,
      fun hne => ⟨(hrs.2 c hc).1 ⟨hro, ?_⟩, (hrc.2 c hc).1 ⟨hro, ?_⟩⟩,
      fun hne => ⟨(hrsi.2 c hc).1 ⟨hro, ?_⟩, (hrci.2 c hc).1 ⟨hro, ?_⟩⟩⟩
    all_goals simpa using hne

end Sys2Proof.Machine
end

section
/-!
The floating-point instructions: the rounding-mode check, the boxed result, the flags, and what stays.
-/
namespace Sys2Proof.Machine

/-! ### The rounding mode (R45, R531) -/

theorem Rm.ofBits_eq_table111 : ∀ b : BitVec 3, Rm.ofBits b = table111 b.toNat := by decide

theorem effectiveRm_eq_table111 (s : State) (rm : BitVec 3) :
    effectiveRm s rm = table111 (if rm = 7 then s.fcsr.toNat / 32 % 8 else rm.toNat) := by
  rw [effectiveRm, Rm.ofBits_eq_table111, Rm.ofBits_eq_table111, s.frm_toNat, apply_ite table111]
  rfl

/-! ### Signs of patterns -/

theorem setSign_eq (t : Fmt) (neg : Bool) (a : Nat) :
    setSign t neg a = a % 2 ^ (t.width - 1) + neg.toNat * 2 ^ (t.width - 1) := by
  cases neg <;> simp [setSign, withSign, Fmt.signBit, add_comm]

theorem toNat_signOf {t : Fmt} {b : Nat} (hb : b < 2 ^ t.width) : (signOf t b).toNat = b / 2 ^ (t.width - 1) := by
  have hlt : b / 2 ^ (t.width - 1) < 2 := by
    rw [Nat.div_lt_iff_lt_mul (Nat.two_pow_pos _)]
    cases t <;> exact hb
  rw [signOf, Fmt.signBit]
  generalize b / 2 ^ (t.width - 1) = k at hlt ⊢
  interval_cases k <;> rfl

theorem State.fread_lt (s : State) (t : Fmt) (r : RegNum) : s.fread t r < 2 ^ t.width := by
  unfold State.fread
  dsimp only
  split
  · exact Nat.mod_lt _ (Nat.two_pow_pos _)
  · cases t <;> decide

section
variable {i : Instr} {s : State}

theorem roundedAnswer_of_withRm {rm : BitVec 3} {k : Rm → Host.Outcome State Fault Refusal} {done : Rm → State → Prop}
    (hi : exec i s = withRm s i rm k) (hk : ∀ m, ∃ t, k m = .next t ∧ done m t) : RoundedAnswer i s rm done := by
  rw [RoundedAnswer, ← effectiveRm_eq_table111]
  constructor
  · intro m hm
    obtain ⟨t, hnext, hdone⟩ := hk m
    exact ⟨t, hi.trans ((withRm_of_some s i k hm).trans hnext), hdone⟩
  · intro hnone
    obtain ⟨m, hm, -⟩ | ⟨-, htrap⟩ := withRm_cases s i rm k
    · cases hm.symm.trans hnone
    · exact hi.trans htrap

/-! ### Results and flags (R52, R53, R56) -/

theorem State.accrue_accrues (s u : State) (flags : FpFlags) (h : u.fcsr = s.fcsr) (len : Nat) :
    Accrues s ((u.accrue flags).retire len) flags := by
  have hfrm : u.frm = s.frm := by rw [State.frm, h]; rfl
  have hflags : u.fflags = s.fflags := by rw [State.fflags, h]; rfl
  refine ⟨?_, ?_, ?_⟩
  · exact (u.accrue_frm flags).trans hfrm
  · exact (u.accrue_fflags flags).trans (by rw [hflags])
  · rw [State.retire_fcsr]
    exact u.setFcsr_lt _ _

/-- The register holds the pattern boxed, whatever stands above its width. -/
theorem State.fwrite_holdsF (s : State) (t : Fmt) (rd : RegNum) (v : Nat) :
    ((s.fwrite t rd v).f[rd.toNat]'rd.isLt).toNat = boxed s.flen t.width v := by
  rw [State.fwrite, State.wf_f_toNat s rd _ t.width_le, BitVec.toNat_ofNat]
  exact boxed_congr _ (Nat.mod_mod_of_dvd _ (Nat.pow_dvd_pow 2 t.width_le))

theorem finishF_fArith (s : State) (t : Fmt) (rd : RegNum) (r : FpResult) :
    ∃ u, finishF s t rd r = .next u ∧ FArith s u t.width rd r := by
  refine ⟨_, rfl, ?_, ?_, ?_, State.accrue_accrues s _ _ rfl 4, ?_⟩
  · simpa [HoldsF] using s.fwrite_holdsF t rd r.bits
  · exact s.wf_sameFBut t.width rd (BitVec.ofNat 128 r.bits)
  · simp [SameX]
  · have hadv := advances_retire (s := s) (u := (s.fwrite t rd r.bits).accrue r.flags) 4 rfl rfl rfl
    simpa [SameMem, SameBytes, SameRest] using hadv

theorem finishFX_fToX (s : State) (rd : RegNum) {w : Word} {v : Int} (hw : (w.toNat : Int) ≡ v [ZMOD 2 ^ 64])
    (flags : FpFlags) : ∃ u, finishFX s rd w flags = .next u ∧ FToX s u rd v flags := by
  refine ⟨_, rfl, ?_, ?_, ?_, State.accrue_accrues s _ _ (s.wx_fcsr ..) 4, ?_⟩
  · exact holdsX_of_rx_eq ((State.retire_rx ..).trans (State.accrue_rx ..)) rfl hw
  · exact fun r hr => by simp [hr]
  · simp [SameF]
  · simp [SameMem, SameBytes, SameRest, advances_retire]

theorem completes_of_finishF {t : Fmt} {rd : RegNum} {r : FpResult} (hi : exec i s = finishF s t rd r) :
    Completes i s fun u => FArith s u t.width rd r := by
  obtain ⟨u, hnext, hdone⟩ := finishF_fArith s t rd r
  exact ⟨u, hi.trans hnext, hdone⟩

theorem completes_of_compareF {t : Fmt} {op : FpVal → FpVal → Bool × FpFlags} {rd rs1 rs2 : RegNum}
    (hi : exec i s = compareF s t op rd rs1 rs2) : Completes i s fun u =>
      FToX s u rd (if (op (s.fval t rs1) (s.fval t rs2)).1 then 1 else 0) (op (s.fval t rs1) (s.fval t rs2)).2 := by
  obtain ⟨u, hnext, hdone⟩ := finishFX_fToX s rd
    (show _ ≡ if (op (s.fval t rs1) (s.fval t rs2)).1 then 1 else 0 [ZMOD 2 ^ 64] by rw [boolWord_toNat]) _
  exact ⟨u, hi.trans hnext, hdone⟩

/-- Sign injection puts a sign in place of rs1's. -/
theorem completes_of_signInject {t : Fmt} {sign : Bool → Bool → Bool} {rd rs1 rs2 : RegNum} {sg : Nat}
    (hi : exec i s = signInject s t sign rd rs1 rs2)
    (hsg : sg = (sign (signOf t (s.fread t rs1)) (signOf t (s.fread t rs2))).toNat) : Completes i s fun u =>
      FResult s u t.width rd (s.fread t rs1 % 2 ^ (t.width - 1) + sg * 2 ^ (t.width - 1)) := by
  refine ⟨_, hi, ?_, s.wf_sameFBut t.width rd _, ?_⟩
  · rw [HoldsF, State.retire_f, s.fwrite_holdsF, setSign_eq, hsg]
  · have hadv := advances_retire (s := s) (u := s.fwrite t rd
      (setSign t (sign (signOf t (s.fread t rs1)) (signOf t (s.fread t rs2))) (s.fread t rs1))) 4 rfl rfl rfl
    simpa [SameX, SameMem, SameBytes, SameRest] using hadv

end

/-- Settles O47: the three rules for the sign, at the three widths. -/
theorem signInjection : Obligations.SignInjection := by
  intro s rd rs1 rs2 mag sign out
  have hsign (t : Fmt) (r : RegNum) : sign t r = (signOf t (s.fread t r)).toNat := (toNat_signOf (s.fread_lt t r)).symm
  have hnot (t : Fmt) (r : RegNum) : 1 - sign t r = (!signOf t (s.fread t r)).toNat := by
    rw [hsign]
    cases signOf t (s.fread t r) <;> rfl
  have hxor (t : Fmt) : (sign t rs1 + sign t rs2) % 2 = (signOf t (s.fread t rs1) != signOf t (s.fread t rs2)).toNat := by
    rw [hsign, hsign]
    cases signOf t (s.fread t rs1) <;> cases signOf t (s.fread t rs2) <;> rfl
  refine ⟨?_, ?_, ?_, ?_, ?_, ?_, ?_, ?_, ?_⟩
  · exact completes_of_signInject (t := .s) (sign := fun _ b => b) rfl (hsign ..)
  · exact completes_of_signInject (t := .s) (sign := fun _ b => !b) rfl (hnot ..)
  · exact completes_of_signInject (t := .s) (sign := fun a b => a != b) rfl (hxor _)
  · exact completes_of_signInject (t := .d) (sign := fun _ b => b) rfl (hsign ..)
  · exact completes_of_signInject (t := .d) (sign := fun _ b => !b) rfl (hnot ..)
  · exact completes_of_signInject (t := .d) (sign := fun a b => a != b) rfl (hxor _)
  · exact completes_of_signInject (t := .q) (sign := fun _ b => b) rfl (hsign ..)
  · exact completes_of_signInject (t := .q) (sign := fun _ b => !b) rfl (hnot ..)
  · exact completes_of_signInject (t := .q) (sign := fun a b => a != b) rfl (hxor _)

/-! ### The rounded operations -/

section
variable {i : Instr} {s : State} {t : Fmt} {rd rs1 rs2 rs3 : RegNum} {rm : BitVec 3}

theorem roundedAnswer_of_finishF {r : Rm → FpResult} (hi : exec i s = withRm s i rm fun m => finishF s t rd (r m)) :
    RoundedAnswer i s rm fun m u => FArith s u t.width rd (r m) :=
  roundedAnswer_of_withRm hi fun m => finishF_fArith s t rd (r m)

theorem roundedAnswer_of_arith2 {op : Fmt → Rm → FpVal → FpVal → FpResult} (hi : exec i s = arith2 s i t op rd rs1 rs2 rm) :
    RoundedAnswer i s rm fun m u => FArith s u t.width rd (op t m (s.fval t rs1) (s.fval t rs2)) :=
  roundedAnswer_of_finishF hi

theorem roundedAnswer_of_arithSqrt (hi : exec i s = arithSqrt s i t rd rs1 rm) :
    RoundedAnswer i s rm fun m u => FArith s u t.width rd (sqrtFp t m (s.fval t rs1)) :=
  roundedAnswer_of_finishF hi

theorem roundedAnswer_of_arithFma {negProduct negAddend : Bool}
    (hi : exec i s = arithFma s i t negProduct negAddend rd rs1 rs2 rs3 rm) :
    RoundedAnswer i s rm fun m u => FArith s u t.width rd
      (fmaFp t m (negateIf negProduct (s.fval t rs1)) (s.fval t rs2) (negateIf negAddend (s.fval t rs3))) :=
  roundedAnswer_of_finishF hi

theorem roundedAnswer_of_convertFmt {src dst : Fmt} (hi : exec i s = convertFmt s i src dst rd rs1 rm) :
    RoundedAnswer i s rm fun m u => FArith s u dst.width rd (convertFp dst m (s.fval src rs1)) :=
  roundedAnswer_of_finishF hi

theorem roundedAnswer_of_convertOfInt {ty : IntTy} {v : Int} (hi : exec i s = convertOfInt s i t ty rd rs1 rm)
    (hv : ty.ofWord (s.rx rs1) = v) : RoundedAnswer i s rm fun m u => FArith s u t.width rd (ofIntFp t m v) :=
  hv ▸ roundedAnswer_of_finishF hi

theorem roundedAnswer_of_convertToInt {ty : IntTy} {wrap : Int → Int} (hi : exec i s = convertToInt s i t ty rd rs1 rm)
    (hwrap : ∀ k, ((ty.toWord k).toNat : Int) ≡ wrap k [ZMOD 2 ^ 64]) : RoundedAnswer i s rm fun m u =>
      FToX s u rd (wrap (toIntFp m ty.lo ty.hi (s.fval t rs1)).1) (toIntFp m ty.lo ty.hi (s.fval t rs1)).2 :=
  roundedAnswer_of_withRm hi fun _ => finishFX_fToX s rd (hwrap _) _

end

/-- Settles O48. -/
theorem floatArithmetic : Obligations.FloatArithmetic := by
  intro s rd rs1 rs2 rs3 rm a b c two root fused
  exact ⟨⟨roundedAnswer_of_arith2 rfl, roundedAnswer_of_arith2 rfl, roundedAnswer_of_arith2 rfl, roundedAnswer_of_arith2 rfl,
      roundedAnswer_of_arithSqrt rfl, roundedAnswer_of_arithFma (negProduct := false) (negAddend := false) rfl,
      roundedAnswer_of_arithFma (negProduct := false) (negAddend := true) rfl,
      roundedAnswer_of_arithFma (negProduct := true) (negAddend := false) rfl,
      roundedAnswer_of_arithFma (negProduct := true) (negAddend := true) rfl⟩,
    ⟨roundedAnswer_of_arith2 rfl, roundedAnswer_of_arith2 rfl, roundedAnswer_of_arith2 rfl, roundedAnswer_of_arith2 rfl,
      roundedAnswer_of_arithSqrt rfl, roundedAnswer_of_arithFma (negProduct := false) (negAddend := false) rfl,
      roundedAnswer_of_arithFma (negProduct := false) (negAddend := true) rfl,
      roundedAnswer_of_arithFma (negProduct := true) (negAddend := false) rfl,
      roundedAnswer_of_arithFma (negProduct := true) (negAddend := true) rfl⟩,
    roundedAnswer_of_arith2 rfl, roundedAnswer_of_arith2 rfl, roundedAnswer_of_arith2 rfl, roundedAnswer_of_arith2 rfl,
      roundedAnswer_of_arithSqrt rfl, roundedAnswer_of_arithFma (negProduct := false) (negAddend := false) rfl,
      roundedAnswer_of_arithFma (negProduct := false) (negAddend := true) rfl,
      roundedAnswer_of_arithFma (negProduct := true) (negAddend := false) rfl,
      roundedAnswer_of_arithFma (negProduct := true) (negAddend := true) rfl⟩

/-- FCLASS's bit numbers are at most 9. -/
theorem classFp_le (t : Fmt) (a : Nat) : classFp t a ≤ 9 := by
  unfold classFp
  repeat' split
  all_goals decide

/-- Settles O49. -/
theorem floatCompareAndSelect : Obligations.FloatCompareAndSelect := by
  intro s rd rs1 rs2 least most cmp cls
  have hclass (t : Fmt) :
      ((BitVec.ofNat 64 (2 ^ classFp t (s.fread t rs1))).toNat : Int) = 2 ^ classFp t (s.fread t rs1) := by
    have hle : 2 ^ classFp t (s.fread t rs1) ≤ 2 ^ 9 := Nat.pow_le_pow_right (by decide) (classFp_le _ _)
    rw [BitVec.toNat_ofNat, Nat.mod_eq_of_lt (by omega)]
    norm_cast
  exact ⟨⟨completes_of_finishF rfl, completes_of_finishF rfl, completes_of_compareF rfl, completes_of_compareF rfl,
      completes_of_compareF rfl, completes_of_finishX rfl (by rw [hclass])⟩,
    ⟨completes_of_finishF rfl, completes_of_finishF rfl, completes_of_compareF rfl, completes_of_compareF rfl,
      completes_of_compareF rfl, completes_of_finishX rfl (by rw [hclass])⟩,
    completes_of_finishF rfl, completes_of_finishF rfl, completes_of_compareF rfl, completes_of_compareF rfl,
    completes_of_compareF rfl, completes_of_finishX rfl (by rw [hclass])⟩

/-! ### The conversions -/

theorem toNat_ofInt_modEq (k : Int) : ((BitVec.ofInt 64 k).toNat : Int) ≡ k [ZMOD 2 ^ 64] := by
  simp only [Int.ModEq, BitVec.toNat_ofInt]
  omega

theorem toNat_signExtend_ofInt_modEq (k : Int) :
    (((BitVec.ofInt 32 k).signExtend 64).toNat : Int) ≡ k.bmod (2 ^ 32) [ZMOD 2 ^ 64] := by
  have h := toNat_modEq_toInt ((BitVec.ofInt 32 k).signExtend 64)
  rwa [BitVec.toInt_signExtend_of_le (by decide), BitVec.toInt_ofInt] at h

theorem IntTy.ofWord_w (s : State) (r : RegNum) : IntTy.w.ofWord (s.rx r) = s.sval32 r :=
  BitVec.toInt_setWidth ..

theorem IntTy.ofWord_wu (s : State) (r : RegNum) : IntTy.wu.ofWord (s.rx r) = s.uval32 r :=
  congrArg Nat.cast (BitVec.toNat_setWidth ..)

theorem IntTy.ofWord_l (s : State) (r : RegNum) : IntTy.l.ofWord (s.rx r) = (s.uval r).bmod (2 ^ 64) :=
  BitVec.toInt_eq_toNat_bmod _

/-- Settles O50. -/
theorem floatConversions : Obligations.FloatConversions := by
  intro s rd rs1 rm toI word w wu l lu of cvt
  have hw {i : Instr} {t : Fmt} (hi : exec i s = convertToInt s i t .w rd rs1 rm) : RoundedAnswer i s rm (w t) :=
    roundedAnswer_of_convertToInt hi toNat_signExtend_ofInt_modEq
  have hwu {i : Instr} {t : Fmt} (hi : exec i s = convertToInt s i t .wu rd rs1 rm) : RoundedAnswer i s rm (wu t) :=
    roundedAnswer_of_convertToInt hi toNat_signExtend_ofInt_modEq
  have hl {i : Instr} {t : Fmt} (hi : exec i s = convertToInt s i t .l rd rs1 rm) : RoundedAnswer i s rm (l t) :=
    roundedAnswer_of_convertToInt hi toNat_ofInt_modEq
  have hlu {i : Instr} {t : Fmt} (hi : exec i s = convertToInt s i t .lu rd rs1 rm) : RoundedAnswer i s rm (lu t) :=
    roundedAnswer_of_convertToInt hi toNat_ofInt_modEq
  refine ⟨⟨hw rfl, hwu rfl, hl rfl, hlu rfl, hw rfl, hwu rfl, hl rfl, hlu rfl, hw rfl, hwu rfl, hl rfl, hlu rfl⟩,
    ⟨?_, ?_, ?_, ?_, ?_, ?_, ?_, ?_, ?_, ?_, ?_, ?_⟩, ?_, ?_, ?_, ?_, ?_, ?_⟩
  · exact roundedAnswer_of_convertOfInt (ty := .w) rfl (IntTy.ofWord_w s rs1)
  · exact roundedAnswer_of_convertOfInt (ty := .wu) rfl (IntTy.ofWord_wu s rs1)
  · exact roundedAnswer_of_convertOfInt (ty := .l) rfl (IntTy.ofWord_l s rs1)
  · exact roundedAnswer_of_convertOfInt (ty := .lu) rfl rfl
  · exact roundedAnswer_of_convertOfInt (ty := .w) rfl (IntTy.ofWord_w s rs1)
  · exact roundedAnswer_of_convertOfInt (ty := .wu) rfl (IntTy.ofWord_wu s rs1)
  · exact roundedAnswer_of_convertOfInt (ty := .l) rfl (IntTy.ofWord_l s rs1)
  · exact roundedAnswer_of_convertOfInt (ty := .lu) rfl rfl
  · exact roundedAnswer_of_convertOfInt (ty := .w) rfl (IntTy.ofWord_w s rs1)
  · exact roundedAnswer_of_convertOfInt (ty := .wu) rfl (IntTy.ofWord_wu s rs1)
  · exact roundedAnswer_of_convertOfInt (ty := .l) rfl (IntTy.ofWord_l s rs1)
  · exact roundedAnswer_of_convertOfInt (ty := .lu) rfl rfl
  · exact roundedAnswer_of_convertFmt rfl
  · exact roundedAnswer_of_convertFmt rfl
  · exact roundedAnswer_of_convertFmt rfl
  · exact roundedAnswer_of_convertFmt rfl
  · exact roundedAnswer_of_convertFmt rfl
  · exact roundedAnswer_of_convertFmt rfl

end Sys2Proof.Machine
end

section
/-!
The memory model: RVTSO keeps more of program order than RVWMO, and on one hart every load reads the store before it.
-/
namespace Sys2Proof.Machine

/-! ### More annotations keep more of program order (R160, R161) -/

section
variable {e : Execution} {i j : Nat}

theorem Execution.annotated_mono {which other : Instr → Bool} (h : ∀ k, which k = true → other k = true)
    (ha : e.annotated which i = true) : e.annotated other i = true := by
  unfold Execution.annotated at ha ⊢
  cases hm : e.stepOf (e.op i) with
  | none => simp [hm] at ha
  | some m =>
    simp only [hm, Option.any_eq_true] at ha ⊢
    obtain ⟨k, hk, hw⟩ := ha
    exact ⟨k, hk, h k hw⟩

theorem Execution.asOne_mono {r q : Nat → Nat → Bool} (h : ∀ a b, r a b = true → q a b = true)
    (ha : e.asOne r i j = true) : e.asOne q i j = true := by
  simp only [Execution.asOne, Bool.and_eq_true, List.any_eq_true] at ha ⊢
  obtain ⟨hpo, a, hpa, b, hpb, hr⟩ := ha
  exact ⟨hpo, a, hpa, b, hpb, h a b hr⟩

theorem Execution.ppoRsw_mono {r q : Nat → Nat → Bool} (h : ∀ a b, r a b = true → q a b = true)
    (ha : e.ppoRsw r i j = true) : e.ppoRsw q i j = true := by
  simp only [Execution.ppoRsw, Bool.and_eq_true, List.any_eq_true] at ha ⊢
  obtain ⟨hops, k, hk, ⟨hpo, hr⟩, x, hx⟩ := ha
  exact ⟨hops, k, hk, ⟨hpo, h k j hr⟩, x, hx⟩

end

/-- The configuration with Ztso on or off. -/
def withZtso (c : Config) (b : Bool) : Config := { c with ext := { c.ext with ztso := b } }

section
variable {c : Config} {e : Execution} {i j : Nat}

theorem acquireRcsc_withZtso (k : Instr) (h : acquireRcsc (withZtso c false) k = true) :
    acquireRcsc (withZtso c true) k = true := by
  unfold acquireRcsc at h ⊢
  split <;> simp_all [withZtso]

theorem releaseRcsc_withZtso (k : Instr) (h : releaseRcsc (withZtso c false) k = true) :
    releaseRcsc (withZtso c true) k = true := by
  unfold releaseRcsc at h ⊢
  split <;> simp_all [withZtso]

theorem Execution.ppoAnnotation_withZtso (h : e.ppoAnnotation (withZtso c false) i j = true) :
    e.ppoAnnotation (withZtso c true) i j = true := by
  have hacq (k : Nat) := e.annotated_mono (i := k) (acquireRcsc_withZtso (c := c))
  have hrel (k : Nat) := e.annotated_mono (i := k) (releaseRcsc_withZtso (c := c))
  have hrcsc (k : Nat) : e.rcsc (withZtso c false) k = true → e.rcsc (withZtso c true) k = true := by
    simp only [Execution.rcsc, Bool.or_eq_true]
    exact Or.imp (hacq k) (hrel k)
  have hacquire : e.acquire (withZtso c false) i = true → e.acquire (withZtso c true) i = true := by
    simp only [Execution.acquire, Bool.or_eq_true]
    exact Or.imp (hacq i) fun hz => by simp [withZtso] at hz
  have hrelease : e.release (withZtso c false) j = true → e.release (withZtso c true) j = true := by
    simp only [Execution.release, Bool.or_eq_true]
    exact Or.imp (hrel j) fun hz => by simp [withZtso] at hz
  rw [Execution.ppoAnnotation, Bool.and_eq_true] at h ⊢
  refine h.imp_right fun hann => ?_
  simp only [Bool.or_eq_true, Bool.and_eq_true] at hann ⊢
  exact hann.imp (Or.imp hacquire hrelease) (And.imp (hrcsc i) (hrcsc j))

theorem Execution.ppoRules_withZtso (h : e.ppoRules (withZtso c false) i j = true) :
    e.ppoRules (withZtso c true) i j = true := by
  simp only [Execution.ppoRules, Bool.or_eq_true] at h ⊢
  exact h.imp_left (.imp_left (.imp_left (.imp_right Execution.ppoAnnotation_withZtso)))

theorem Execution.ppoWithin_withZtso (n : Nat) (h : e.ppoWithin (withZtso c false) n i j = true) :
    e.ppoWithin (withZtso c true) n i j = true := by
  induction n generalizing i j with
  | zero =>
    refine Execution.asOne_mono (fun a b hab => ?_) h
    rw [Bool.or_eq_true] at hab ⊢
    exact hab.imp_left Execution.ppoRules_withZtso
  | succ n ih =>
    refine Execution.asOne_mono (fun a b hab => ?_) h
    simp only [Bool.or_eq_true, Bool.and_eq_true] at hab ⊢
    exact hab.imp (.imp_left Execution.ppoRules_withZtso) (.imp_right (Execution.ppoRsw_mono fun _ _ => ih))

theorem Execution.respectsPpo_withZtso (h : e.respectsPpo (withZtso c true) = true) :
    e.respectsPpo (withZtso c false) = true := by
  simp only [Execution.respectsPpo, List.all_eq_true, Bool.or_eq_true, Bool.not_eq_true'] at h ⊢
  intro i hi j hj
  refine (h i hi j hj).imp_left fun hnot => Bool.eq_false_iff.mpr fun hppo => ?_
  exact Bool.eq_false_iff.mp hnot (Execution.ppoWithin_withZtso _ hppo)

end

/-- Settles O59: the rules but for preserved program order do not look at Ztso, and without it less is preserved. -/
theorem tsoIsStronger : Obligations.TsoIsStronger := by
  intro c e h
  change e.legal (withZtso c true) = true at h
  change e.legal (withZtso c false) = true
  simp only [Execution.legal, Bool.and_eq_true] at h ⊢
  obtain ⟨⟨⟨⟨⟨hwf, hppo⟩, hvalues⟩, hpairs⟩, hmisaligned⟩, hloads⟩ := h
  exact ⟨⟨⟨⟨⟨hwf, Execution.respectsPpo_withZtso hppo⟩, hvalues⟩, hpairs⟩, hmisaligned⟩, hloads⟩

/-! ### One hart (R131, R150) -/

/-- The last of the places with a property is the greatest. -/
theorem le_of_getLast?_filter_range {n k j : Nat} {p : Nat → Bool} (hlast : ((List.range n).filter p).getLast? = some k)
    (hj : j < n) (hp : p j = true) : j ≤ k := by
  obtain ⟨l, hl⟩ := List.getLast?_eq_some_iff.mp hlast
  have hsorted : ((List.range n).filter p).Pairwise (· < ·) := List.pairwise_lt_range.filter p
  have hmem : j ∈ (List.range n).filter p := List.mem_filter.mpr ⟨List.mem_range.mpr hj, hp⟩
  rw [hl] at hsorted hmem
  rw [List.pairwise_append] at hsorted
  obtain hmem | hmem := List.mem_append.mp hmem
  · exact (hsorted.2.2 j hmem k (List.mem_singleton_self k)).le
  · exact (List.mem_singleton.mp hmem).le

section
variable {c : Config} {e : Execution} {i j k x : Nat}

theorem storesTo_iff {o : MemOp} : storesTo o x = true ↔ o.store = true ∧ x ∈ o.bytes := by
  simp [storesTo]

theorem Execution.po_iff : e.po i j = true ↔ (e.op i).hart = (e.op j).hart ∧ (e.op i).pos < (e.op j).pos := by
  simp [Execution.po]

theorem Execution.candidate_iff : e.candidate i x k = true ↔
    k ≠ i ∧ storesTo (e.op k) x = true ∧ (k < i ∨ e.po k i = true) := by
  simp [Execution.candidate, and_assoc]

theorem Execution.mem_places {h p : Nat} : i ∈ e.places h p ↔ i < e.gmo.length ∧ (e.op i).hart = h ∧ (e.op i).pos = p := by
  simp [Execution.places]

/-- An operation is one of its instruction's. -/
theorem Execution.mem_parts (hi : i < e.gmo.length) : i ∈ e.parts i := by
  unfold Execution.parts
  split
  · split
    · exact Execution.mem_places.mpr ⟨hi, rfl, rfl⟩
    · exact List.mem_singleton_self i
  · exact List.mem_singleton_self i

/-- What program order and a rule order is preserved (R140, R162). -/
theorem Execution.ppo_of_rules (hi : i < e.gmo.length) (hj : j < e.gmo.length) (hpo : e.po i j = true)
    (hrules : e.ppoRules c i j = true) : e.ppo c i j = true := by
  have hone {r : Nat → Nat → Bool} (hr : r i j = true) : e.asOne r i j = true := by
    simp only [Execution.asOne, Bool.and_eq_true, List.any_eq_true]
    exact ⟨hpo, i, Execution.mem_parts hi, j, Execution.mem_parts hj, hr⟩
  unfold Execution.ppo
  cases e.gmo.length with
  | zero => exact hone (by simp [hrules])
  | succ n => exact hone (by simp [hrules])

/-- Rule 1 of R140: a store stays after the accesses of its bytes that program order puts before it. -/
theorem Execution.lt_of_po_store (hppo : e.respectsPpo c = true) (hi : i < e.gmo.length) (hj : j < e.gmo.length)
    (hx : x ∈ (e.op i).bytes) (hstore : storesTo (e.op j) x = true) (hpo : e.po i j = true) : i < j := by
  obtain ⟨hst, hxj⟩ := storesTo_iff.mp hstore
  have hoverlap : overlaps (e.op i) (e.op j) = true := by
    simp only [overlaps, List.any_eq_true, List.contains_iff_mem]
    exact ⟨x, hx, hxj⟩
  have hrules : e.ppoRules c i j = true := by simp [Execution.ppoRules, Execution.ppoOverlap, hst, hoverlap]
  simp only [Execution.respectsPpo, List.all_eq_true, List.mem_range, Bool.or_eq_true, Bool.not_eq_true',
    decide_eq_true_eq] at hppo
  obtain hnot | hlt := hppo i hi j hj
  · exact absurd (Execution.ppo_of_rules hi hj hpo hrules) (Bool.eq_false_iff.mp hnot)
  · exact hlt

/-- Where a value occurs once in the lists of a list's members, one member's list has it. -/
theorem eq_of_count_flatMap {f : Nat → List Nat} {l : List Nat} (hcount : (l.flatMap f).count x = 1) (hj : j ∈ l)
    (hk : k ∈ l) (hxj : x ∈ f j) (hxk : x ∈ f k) : j = k := by
  obtain ⟨l₁, l₂, rfl⟩ := List.append_of_mem hj
  simp only [List.flatMap_append, List.flatMap_cons, List.count_append] at hcount
  have hposj := List.count_pos_iff.mpr hxj
  have hzero {m : List Nat} (hm : (m.flatMap f).count x = 0) : k ∉ m := fun hkm =>
    List.count_eq_zero.mp hm (List.mem_flatMap.mpr ⟨k, hkm, hxk⟩)
  obtain hk | hk := List.mem_append.mp hk
  · exact absurd hk (hzero (by omega))
  · obtain rfl | hk := List.mem_cons.mp hk
    · rfl
    · exact absurd hk (hzero (by omega))

/-- Two operations of one step that store to one byte are the same: the step's stores share its bytes out. -/
theorem Execution.eq_of_sharesOut {h p : Nat} {bytes : List Nat} (hshare : e.sharesOut h p MemOp.store bytes = true)
    (hj : j ∈ e.places h p) (hk : k ∈ e.places h p) (hstj : storesTo (e.op j) x = true) (hstk : storesTo (e.op k) x = true) :
    j = k := by
  simp only [Execution.sharesOut, Bool.and_eq_true, List.all_eq_true, List.contains_iff_mem, beq_iff_eq] at hshare
  obtain ⟨⟨-, hin⟩, hone⟩ := hshare
  obtain ⟨hsj, hxj⟩ := storesTo_iff.mp hstj
  obtain ⟨hsk, hxk⟩ := storesTo_iff.mp hstk
  have hxj' : x ∈ if (e.op j).store then (e.op j).bytes else [] := by rwa [if_pos hsj]
  have hxk' : x ∈ if (e.op k).store then (e.op k).bytes else [] := by rwa [if_pos hsk]
  exact eq_of_count_flatMap (hone x (hin x (List.mem_flatMap.mpr ⟨j, hj, hxj'⟩))) hj hk hxj' hxk'

theorem eq_of_length_eq_one {l : List Nat} (hl : (l.length == 1) = true) (hj : j ∈ l) (hk : k ∈ l) : j = k := by
  obtain ⟨a, rfl⟩ := List.length_eq_one_iff.mp (beq_iff_eq.mp hl)
  rw [List.mem_singleton.mp hj, List.mem_singleton.mp hk]

theorem Execution.eq_of_generates {h p : Nat} {m : Issued} (hgen : e.generates c h p m = true)
    (hj : j ∈ e.places h p) (hk : k ∈ e.places h p) (hstj : storesTo (e.op j) x = true) (hstk : storesTo (e.op k) x = true) :
    j = k := by
  unfold Execution.generates at hgen
  split at hgen
  · split at hgen
    · rw [List.isEmpty_iff.mp hgen] at hj
      cases hj
    · simp only [Bool.and_eq_true] at hgen
      obtain ⟨⟨⟨-, hstores⟩, -⟩, -⟩ := hgen
      exact Execution.eq_of_sharesOut hstores hj hk hstj hstk
  · exact eq_of_length_eq_one (Bool.and_eq_true_iff.mp hgen).1 hj hk
  · exact Execution.eq_of_sharesOut (Bool.and_eq_true_iff.mp hgen).1 hj hk hstj hstk

theorem Execution.op_of_lt (hi : i < e.gmo.length) : e.op i ∈ e.gmo := by
  rw [Execution.op, List.getD_eq_getElem _ _ hi]
  exact List.getElem_mem hi

/-- Each operation is one of those its step generates. -/
theorem Execution.exists_generates (hwf : e.wellFormed c = true) (hi : i < e.gmo.length) :
    (e.op i).hart < e.streams.length ∧ ∃ m, e.generates c (e.op i).hart (e.op i).pos m = true := by
  simp only [Execution.wellFormed, Bool.and_eq_true, List.all_eq_true, List.mem_range] at hwf
  obtain ⟨hops, hsteps⟩ := hwf
  obtain ⟨⟨⟨⟨hstep, -⟩, -⟩, -⟩, -⟩ := hops _ (Execution.op_of_lt hi)
  obtain ⟨m, hm⟩ := Option.isSome_iff_exists.mp hstep
  have hpos : (e.op i).pos < (e.streams.getD (e.op i).hart []).length := by
    obtain ⟨h, -⟩ := List.getElem?_eq_some_iff.mp hm
    exact h
  have hhart : (e.op i).hart < e.streams.length := by
    by_contra hge
    rw [List.getD_eq_default _ _ (Nat.le_of_not_lt hge)] at hpos
    exact absurd hpos (Nat.not_lt_zero _)
  have hgen := hsteps _ hhart _ hpos
  rw [show e.at? (e.op i).hart (e.op i).pos = some m from hm] at hgen
  exact ⟨hhart, m, hgen⟩

end

section
variable {c : Config} {e : Execution} {i j k x : Nat} (hlegal : e.legal c = true) (hone : e.streams.length = 1)
include hlegal hone

theorem Execution.hart_eq (hi : i < e.gmo.length) (hj : j < e.gmo.length) : (e.op i).hart = (e.op j).hart := by
  simp only [Execution.legal, Bool.and_eq_true] at hlegal
  obtain ⟨⟨⟨⟨⟨hwf, -⟩, -⟩, -⟩, -⟩, -⟩ := hlegal
  have hhi := (Execution.exists_generates hwf hi).1
  have hhj := (Execution.exists_generates hwf hj).1
  omega

/-- A store that a load may read from is before the load in program order. -/
theorem Execution.po_of_candidate (hi : i < e.gmo.length) (hk : k < e.gmo.length) (hload : (e.op i).load = true)
    (hx : x ∈ (e.op i).bytes) (hcand : e.candidate i x k = true) : e.po k i = true := by
  have hhart := Execution.hart_eq hlegal hone hi hk
  simp only [Execution.legal, Bool.and_eq_true] at hlegal
  obtain ⟨⟨⟨⟨⟨-, hppo⟩, -⟩, -⟩, -⟩, hloads⟩ := hlegal
  obtain ⟨-, hst, hlt | hpo⟩ := Execution.candidate_iff.mp hcand
  · obtain hpos | hpos | hpos := lt_trichotomy (e.op k).pos (e.op i).pos
    · exact Execution.po_iff.mpr ⟨hhart.symm, hpos⟩
    · simp only [Execution.loadsBeforeStores, List.all_eq_true, List.mem_range] at hloads
      have hoverlap : overlaps (e.op i) (e.op k) = true := by
        simp only [overlaps, List.any_eq_true, List.contains_iff_mem]
        exact ⟨x, hx, (storesTo_iff.mp hst).2⟩
      have hle := hloads i hi k hk
      simp only [hhart, hpos, hload, (storesTo_iff.mp hst).1, hoverlap, beq_self_eq_true, Bool.and_self, Bool.not_true,
        Bool.false_or, decide_eq_true_eq] at hle
      omega
    · have := Execution.lt_of_po_store hppo hi hk hx hst (Execution.po_iff.mpr ⟨hhart, hpos⟩)
      omega
  · exact hpo

/-- Of two stores to a byte the one later in global memory order is the later in program order. -/
theorem Execution.po_of_stores (hj : j < e.gmo.length) (hk : k < e.gmo.length) (hle : j ≤ k)
    (hstj : storesTo (e.op j) x = true) (hstk : storesTo (e.op k) x = true) : j = k ∨ e.po j k = true := by
  have hhart := Execution.hart_eq hlegal hone hj hk
  simp only [Execution.legal, Bool.and_eq_true] at hlegal
  obtain ⟨⟨⟨⟨⟨hwf, hppo⟩, -⟩, -⟩, -⟩, -⟩ := hlegal
  obtain hpos | hpos | hpos := lt_trichotomy (e.op j).pos (e.op k).pos
  · exact .inr (Execution.po_iff.mpr ⟨hhart, hpos⟩)
  · obtain ⟨-, m, hgen⟩ := Execution.exists_generates hwf hj
    exact .inl (Execution.eq_of_generates hgen (Execution.mem_places.mpr ⟨hj, rfl, rfl⟩)
      (Execution.mem_places.mpr ⟨hk, hhart.symm, hpos.symm⟩) hstj hstk)
  · have := Execution.lt_of_po_store hppo hk hj (storesTo_iff.mp hstk).2 hstj (Execution.po_iff.mpr ⟨hhart.symm, hpos⟩)
    omega

end

/-- Settles O60: the stores a load may read from are those before it in program order, and the latest of them in global
memory order is the latest in program order. -/
theorem singleHartIsSequential : Obligations.SingleHartIsSequential := by
  intro c e hlegal hone i x hi hload hx
  have hcandidate {j : Nat} (hst : storesTo (e.op j) x = true) (hpo : e.po j i = true) : e.candidate i x j = true := by
    refine Execution.candidate_iff.mpr ⟨?_, hst, .inr hpo⟩
    rintro rfl
    exact absurd (Execution.po_iff.mp hpo).2 (Nat.lt_irrefl _)
  split
  case h_1 k hread =>
    obtain ⟨hk, hcand⟩ := List.mem_filter.mp (List.mem_of_getLast? hread)
    have hk := List.mem_range.mp hk
    have hstk := (Execution.candidate_iff.mp hcand).2.1
    refine ⟨hstk, Execution.po_of_candidate hlegal hone hi hk hload hx hcand, fun j hj hst hpo => ?_⟩
    exact Execution.po_of_stores hlegal hone hj hk (le_of_getLast?_filter_range hread hj (hcandidate hst hpo)) hst hstk
  case h_2 hread =>
    intro j hj hst
    refine Bool.eq_false_iff.mpr fun hpo => ?_
    have hempty := List.getLast?_eq_none_iff.mp hread
    exact List.not_mem_nil (hempty ▸ List.mem_filter.mpr ⟨List.mem_range.mpr hj, hcandidate hst hpo⟩)

end Sys2Proof.Machine
end

section
/-!
The values floating-point patterns denote: NaN and infinite operands, the order, and the ten classes.
-/
namespace Sys2Proof.Machine

section
variable {t : Fmt} {m : Rm} {a b c : FpVal}

/-! ### NaN operands (R532, R539) -/

@[simp] theorem FpVal.isNan_negate (a : FpVal) : a.negate.isNan = a.isNan := by cases a <;> rfl

@[simp] theorem FpVal.isSignaling_negate (a : FpVal) : a.negate.isSignaling = a.isSignaling := by cases a <;> rfl

theorem FpVal.isNan_iff : a.isNan = true ↔ ∃ sg, a = .nan sg := by cases a <;> simp [FpVal.isNan]

theorem addFp_of_isNan (h : (a.isNan || b.isNan) = true) :
    addFp t m a b = nanResult t (a.isSignaling || b.isSignaling) := by
  rw [Bool.or_eq_true] at h
  obtain h | h := h <;> obtain ⟨sg, rfl⟩ := FpVal.isNan_iff.mp h
  · rfl
  · cases a <;> rfl

theorem subFp_of_isNan (h : (a.isNan || b.isNan) = true) :
    subFp t m a b = nanResult t (a.isSignaling || b.isSignaling) := by
  rw [subFp, addFp_of_isNan (by rwa [FpVal.isNan_negate]), FpVal.isSignaling_negate]

theorem mulFp_of_isNan (h : (a.isNan || b.isNan) = true) :
    mulFp t m a b = nanResult t (a.isSignaling || b.isSignaling) := by
  rw [Bool.or_eq_true] at h
  obtain h | h := h <;> obtain ⟨sg, rfl⟩ := FpVal.isNan_iff.mp h
  · rfl
  · cases a <;> rfl

theorem divFp_of_isNan (h : (a.isNan || b.isNan) = true) :
    divFp t m a b = nanResult t (a.isSignaling || b.isSignaling) := by
  rw [Bool.or_eq_true] at h
  obtain h | h := h <;> obtain ⟨sg, rfl⟩ := FpVal.isNan_iff.mp h
  · rfl
  · cases a <;> rfl

theorem infTimesZero_iff : infTimesZero a b = true ↔
    ∃ x n e, (a = .inf x ∧ b = .fin n 0 e) ∨ (b = .inf x ∧ a = .fin n 0 e) := by
  cases a <;> cases b <;> simp [infTimesZero]

theorem fmaFp_of_infTimesZero (h : infTimesZero a b = true) : InvalidResult t (fmaFp t m a b c) := by
  rw [fmaFp, if_pos h]
  exact ⟨rfl, rfl⟩

theorem fmaFp_of_isNan (h : infTimesZero a b = false) (hnan : (a.isNan || b.isNan || c.isNan) = true) :
    fmaFp t m a b c = nanResult t (a.isSignaling || b.isSignaling || c.isSignaling) := by
  rw [fmaFp, h, if_neg Bool.false_ne_true, if_pos hnan]

/-- An infinite product: invalid with the opposite infinity added, else the sum. -/
theorem fmaFp_of_inf (h : infTimesZero a b = false) (hnan : (a.isNan || b.isNan || c.isNan) = false)
    (hinf : (∃ x, a = .inf x) ∨ ∃ x, b = .inf x) :
    fmaFp t m a b c = if c = .inf (!(a.neg != b.neg)) then nanResult t true else infResult t (a.neg != b.neg) := by
  have hsum (z p : Bool) : (if z = p then infResult t p else nanResult t true) =
      if FpVal.inf z = .inf (!p) then nanResult t true else infResult t p := by cases z <;> cases p <;> rfl
  rw [fmaFp, h, hnan, if_neg Bool.false_ne_true, if_neg Bool.false_ne_true]
  simp only [Bool.or_eq_false_iff] at hnan
  obtain ⟨⟨ha, hb⟩, hc⟩ := hnan
  obtain ⟨x, rfl⟩ | ⟨x, rfl⟩ := hinf
  · cases b with
    | nan => cases hb
    | inf | fin =>
      cases c with
      | nan => cases hc
      | inf z => exact hsum z _
      | fin => rfl
  · cases a with
    | nan => cases ha
    | inf | fin =>
      cases c with
      | nan => cases hc
      | inf z => exact hsum z _
      | fin => rfl

end

/-- Settles O54. -/
theorem nanAndInfiniteOperands : Obligations.NanAndInfiniteOperands := by
  intro t m
  constructor
  · intro a b c nan infZero
    have hzero : infTimesZero a b = true ↔ infZero := infTimesZero_iff
    refine ⟨fun h => ⟨addFp_of_isNan h, subFp_of_isNan h, mulFp_of_isNan h, divFp_of_isNan h⟩, fun h => ?_,
      fun h => fmaFp_of_infTimesZero (hzero.mpr h), fun h hnan => ?_, fun h hnan hinf => ?_⟩
    · obtain ⟨sg, rfl⟩ := FpVal.isNan_iff.mp h
      exact ⟨rfl, rfl⟩
    · exact fmaFp_of_isNan (Bool.eq_false_iff.mpr (mt hzero.mp h)) hnan
    · rw [fmaFp_of_inf (Bool.eq_false_iff.mpr (mt hzero.mp h)) (Bool.eq_false_iff.mpr hnan) hinf]
      refine ⟨fun hc => ?_, fun hc => ?_⟩
      · rw [if_pos hc]
        exact ⟨rfl, rfl⟩
      · rw [if_neg hc]
        exact ⟨rfl, rfl⟩
  · intro x y n k e fin
    refine ⟨fun h => ?_, fun h => ?_, ⟨rfl, rfl⟩, ⟨rfl, rfl⟩, ⟨rfl, rfl⟩, ⟨rfl, rfl⟩, ⟨rfl, rfl⟩, fun h => ?_, fun h => ?_,
      ⟨rfl, rfl⟩, ⟨rfl, rfl⟩, ⟨rfl, rfl⟩, ⟨rfl, rfl⟩, ⟨rfl, rfl⟩, ⟨rfl, rfl⟩, fun _ _ _ => ⟨rfl, rfl⟩⟩
    · subst h
      cases x <;> exact ⟨⟨rfl, rfl⟩, rfl, rfl⟩
    · obtain rfl := Bool.eq_not_of_ne h
      cases y <;> exact ⟨⟨rfl, rfl⟩, rfl, rfl⟩
    · simp [InfResult, infResult, mulFp, fin, h]
    · simp [InvalidResult, nanResult, mulFp, fin, h]

/-! ### The order of the values (R566 to R568) -/

theorem finiteValue_eq_mul (n : Bool) (k : Nat) (e : Int) : finiteValue n k e = (if n then -1 else 1) * ((k : ℚ) * 2 ^ e) :=
  mul_assoc ..

/-- A value as a multiple of a power of two that is at most its own. -/
theorem scaled_mul_two_zpow (n : Bool) (k : Nat) {e e' : Int} (he : e' ≤ e) :
    (scaled n k e e' : ℚ) * 2 ^ e' = finiteValue n k e := by
  have hpow : (2 : ℚ) ^ (e - e').toNat * 2 ^ e' = 2 ^ e := by
    rw [← zpow_natCast, ← zpow_add₀ two_ne_zero, Int.toNat_of_nonneg (by omega), sub_add_cancel]
  rw [finiteValue_eq_mul, ← hpow, scaled]
  cases n <;> simp <;> ring

theorem ltFp_fin (na : Bool) (ma : Nat) (ea : Int) (nb : Bool) (mb : Nat) (eb : Int) :
    ltFp (.fin na ma ea) (.fin nb mb eb) = decide (finiteValue na ma ea < finiteValue nb mb eb) := by
  have hlt {e : Int} (ha : e ≤ ea) (hb : e ≤ eb) :
      scaled na ma ea e < scaled nb mb eb e ↔ finiteValue na ma ea < finiteValue nb mb eb := by
    rw [← scaled_mul_two_zpow na ma ha, ← scaled_mul_two_zpow nb mb hb, mul_lt_mul_iff_left₀ (zpow_pos two_pos e),
      Int.cast_lt]
  simp only [ltFp]
  split
  case isTrue h => exact decide_eq_decide.mpr (hlt le_rfl h)
  case isFalse h => exact decide_eq_decide.mpr (hlt (by omega) le_rfl)

theorem eqFp_fin (na : Bool) (ma : Nat) (ea : Int) (nb : Bool) (mb : Nat) (eb : Int) :
    eqFp (.fin na ma ea) (.fin nb mb eb) = decide (finiteValue na ma ea = finiteValue nb mb eb) := by
  rw [eqFp, ltFp_fin, ltFp_fin, ← decide_not, ← decide_not, ← Bool.decide_and, decide_eq_decide, not_lt, not_lt,
    and_comm, ← le_antisymm_iff]
  · exact nofun
  · exact nofun

theorem ltFp_self (a : FpVal) : ltFp a a = false := by
  cases a with
  | nan => rfl
  | inf n => cases n <;> rfl
  | fin n k e => simp [ltFp_fin]

theorem ltFp_asymm {a b : FpVal} (h : ltFp a b = true) : ltFp b a = false := by
  cases a with
  | nan => cases b <;> cases h
  | inf x =>
    cases b with
    | nan => cases h
    | inf y =>
      have hxy : x = true ∧ y = false := by simpa [ltFp] using h
      simp [ltFp, hxy]
    | fin => exact congrArg (!·) h
  | fin =>
    cases b with
    | nan => cases h
    | inf y => simpa [ltFp] using h
    | fin =>
      rw [ltFp_fin, decide_eq_true_iff] at h
      rw [ltFp_fin, decide_eq_false_iff_not]
      exact not_lt_of_gt h

theorem ltFp_of_eqFp {a b : FpVal} (h : eqFp a b = true) : ltFp a b = false ∧ ltFp b a = false := by
  cases a <;> cases b <;> simp_all [eqFp]

/-! ### Minimum and maximum (R547, R548) -/

section
variable (t : Fmt) (mx : Bool) (a b : Nat)

/-- Of two numbers the one selected is neither greater, or for the maximum less, than the other. -/
theorem minMaxFp_of_numbers (ha : (decodeFp t a).isNan = false) (hb : (decodeFp t b).isNan = false) :
    let r := (minMaxFp t mx a b).bits
    (r = a ∨ r = b) ∧
      (mx = false → ltFp (decodeFp t a) (decodeFp t r) = false ∧ ltFp (decodeFp t b) (decodeFp t r) = false) ∧
      (mx = true → ltFp (decodeFp t r) (decodeFp t a) = false ∧ ltFp (decodeFp t r) (decodeFp t b) = false) := by
  have hself := ltFp_self
  cases mx with
  | false =>
    simp only [minMaxFp, ha, hb, Bool.and_self, Bool.false_eq_true, if_false]
    split
    case isTrue h =>
      refine ⟨.inl rfl, fun _ => ⟨hself _, ?_⟩, nofun⟩
      rw [Bool.or_eq_true, Bool.and_eq_true, Bool.and_eq_true] at h
      obtain h | ⟨⟨h, -⟩, -⟩ := h
      · exact ltFp_asymm h
      · exact (ltFp_of_eqFp h).2
    case isFalse h =>
      refine ⟨.inr rfl, fun _ => ⟨?_, hself _⟩, nofun⟩
      rw [Bool.or_eq_true, not_or] at h
      exact Bool.eq_false_iff.mpr h.1
  | true =>
    simp only [minMaxFp, ha, hb, Bool.and_self, Bool.false_eq_true, if_false, if_true]
    split
    case isTrue h =>
      refine ⟨.inl rfl, nofun, fun _ => ⟨hself _, ?_⟩⟩
      rw [Bool.or_eq_true, Bool.and_eq_true, Bool.and_eq_true] at h
      obtain h | ⟨⟨h, -⟩, -⟩ := h
      · exact ltFp_asymm h
      · exact (ltFp_of_eqFp h).1
    case isFalse h =>
      refine ⟨.inr rfl, nofun, fun _ => ⟨?_, hself _⟩⟩
      rw [Bool.or_eq_true, not_or] at h
      exact Bool.eq_false_iff.mpr h.1

/-- -0 is taken for less than +0. -/
theorem minMaxFp_of_zeros {ea eb : Int} (ha : decodeFp t a = .fin true 0 ea) (hb : decodeFp t b = .fin false 0 eb) :
    (minMaxFp t mx a b).bits = (if mx then b else a) ∧ (minMaxFp t mx b a).bits = if mx then b else a := by
  have hlt : finiteValue true 0 ea = 0 ∧ finiteValue false 0 eb = 0 := by simp [finiteValue]
  cases mx <;> simp [minMaxFp, ha, hb, ltFp_fin, eqFp_fin, hlt, FpVal.isNan, FpVal.neg]

end

/-! ### The fields of a pattern (R537, R569) -/

/-- The patterns of finite numbers: subnormal and normal ones. -/
theorem decodeFp_eq_fin_iff {t : Fmt} {a : Nat} {n : Bool} {k : Nat} {e : Int} : decodeFp t a = .fin n k e ↔
    expOf t a ≠ 2 ^ t.expBits - 1 ∧ n = signOf t a ∧
      ((expOf t a = 0 ∧ k = fracOf t a ∧ e = t.ulpExp) ∨
        (expOf t a ≠ 0 ∧ k = 2 ^ t.fracBits + fracOf t a ∧ e = t.ulpExp + ((expOf t a : Int) - 1))) := by
  unfold decodeFp
  split
  case isTrue h => split <;> simp [h]
  case isFalse h =>
    split
    case isTrue h0 =>
      rw [FpVal.fin.injEq]
      constructor
      · rintro ⟨rfl, rfl, rfl⟩
        exact ⟨h, rfl, .inl ⟨h0, rfl, rfl⟩⟩
      · rintro ⟨-, rfl, ⟨-, rfl, rfl⟩ | ⟨hne, -⟩⟩
        · exact ⟨rfl, rfl, rfl⟩
        · exact absurd h0 hne
    case isFalse h0 =>
      rw [FpVal.fin.injEq]
      constructor
      · rintro ⟨rfl, rfl, rfl⟩
        exact ⟨h, rfl, .inr ⟨h0, rfl, rfl⟩⟩
      · rintro ⟨-, rfl, ⟨heq, -⟩ | ⟨-, rfl, rfl⟩⟩
        · exact absurd heq h0
        · exact ⟨rfl, rfl, rfl⟩

theorem abs_finiteValue (n : Bool) (k : Nat) (e : Int) : |finiteValue n k e| = (k : ℚ) * 2 ^ e := by
  have hpos : (0 : ℚ) ≤ (k : ℚ) * 2 ^ e := by positivity
  rw [finiteValue_eq_mul]
  cases n <;> simp [abs_of_nonneg hpos]

theorem finiteValue_eq_zero_iff {n : Bool} {k : Nat} {e : Int} : finiteValue n k e = 0 ↔ k = 0 := by
  have hpow : (2 : ℚ) ^ e ≠ 0 := zpow_ne_zero e two_ne_zero
  rw [← abs_eq_zero, abs_finiteValue, mul_eq_zero, Nat.cast_eq_zero, or_iff_left hpow]

theorem two_zpow_emin (t : Fmt) : (2 : ℚ) ^ t.emin = ((2 ^ t.fracBits : Nat) : ℚ) * 2 ^ t.ulpExp := by
  rw [Nat.cast_pow, Nat.cast_ofNat, ← zpow_natCast, ← zpow_add₀ two_ne_zero, Fmt.ulpExp, add_sub_cancel]

section
variable {t : Fmt} {a : Nat} {n : Bool} {k : Nat} {e : Int} (h : decodeFp t a = .fin n k e)
include h

theorem classFp_of_zero (hv : |finiteValue n k e| = 0) : classFp t a = if n then 3 else 4 := by
  simp [classFp, h, finiteValue_eq_zero_iff.mp (abs_eq_zero.mp hv)]

/-- A finite number is below 2 ^ emin exactly where its exponent field is 0. -/
theorem abs_lt_emin_iff : |finiteValue n k e| < 2 ^ t.emin ↔ expOf t a = 0 := by
  have hulp : (0 : ℚ) < 2 ^ t.ulpExp := zpow_pos two_pos _
  obtain ⟨-, -, ⟨hexp, rfl, rfl⟩ | ⟨hexp, rfl, rfl⟩⟩ := decodeFp_eq_fin_iff.mp h
  · refine iff_of_true ?_ hexp
    rw [abs_finiteValue, two_zpow_emin, mul_lt_mul_iff_left₀ hulp, Nat.cast_lt]
    exact Nat.mod_lt _ (Nat.two_pow_pos _)
  · refine iff_of_false (not_lt.mpr ?_) hexp
    have hgrow : (2 : ℚ) ^ t.ulpExp ≤ 2 ^ (t.ulpExp + ((expOf t a : Int) - 1)) :=
      zpow_le_zpow_right₀ one_le_two (by omega)
    rw [abs_finiteValue, two_zpow_emin]
    exact mul_le_mul (Nat.cast_le.mpr (Nat.le_add_right ..)) hgrow hulp.le (Nat.cast_nonneg _)

theorem classFp_of_subnormal (hpos : 0 < |finiteValue n k e|) (hlt : |finiteValue n k e| < 2 ^ t.emin) :
    classFp t a = if n then 2 else 5 := by
  have hk : k ≠ 0 := fun hk => (abs_pos.mp hpos) (finiteValue_eq_zero_iff.mpr hk)
  simp [classFp, h, hk, (abs_lt_emin_iff h).mp hlt]

theorem classFp_of_normal (hle : (2 : ℚ) ^ t.emin ≤ |finiteValue n k e|) : classFp t a = if n then 1 else 6 := by
  have hpos : 0 < |finiteValue n k e| := (zpow_pos two_pos _).trans_le hle
  have hk : k ≠ 0 := fun hk => (abs_pos.mp hpos) (finiteValue_eq_zero_iff.mpr hk)
  simp [classFp, h, hk, mt (abs_lt_emin_iff h).mpr (not_lt.mpr hle)]

end

/-- Settles O55. -/
theorem comparisonAndClassification : Obligations.ComparisonAndClassification := by
  refine ⟨?_, ?_, ?_, ?_⟩
  · intro na ma ea nb mb eb x y a b plain
    refine ⟨⟨?_, ?_, ?_⟩, ?_, ?_, ?_⟩
    · simp [fltFp, a, b, plain, FpVal.isNan, ltFp_fin]
    · simp [fleFp, a, b, plain, FpVal.isNan, ltFp_fin, eqFp_fin, le_iff_lt_or_eq]
    · simp [feqFp, a, b, plain, FpVal.isSignaling, eqFp_fin]
    · cases x <;> exact ⟨rfl, rfl, rfl⟩
    · cases x <;> exact ⟨rfl, rfl, rfl⟩
    · cases x <;> cases y <;> exact ⟨rfl, rfl, rfl⟩
  · intro a b h
    refine ⟨if_pos h, if_pos h, ?_⟩
    have heq : eqFp a b = false := by
      rw [Bool.or_eq_true] at h
      obtain h | h := h <;> obtain ⟨sg, rfl⟩ := FpVal.isNan_iff.mp h
      · rfl
      · cases a <;> rfl
    rw [feqFp, heq]
  · intro t mx a b r
    refine ⟨fun ha hb => ?_, fun ha hb => ?_, fun ha hb => ?_, minMaxFp_of_numbers t mx a b,
      fun ea eb ha hb => minMaxFp_of_zeros t mx a b ha hb, rfl⟩
    all_goals simp [r, minMaxFp, ha, hb]
  · intro t a
    refine ⟨fun n h => by simp [classFp, h], fun sg h => by simp [classFp, h], fun n k e h =>
      ⟨classFp_of_zero h, classFp_of_subnormal h, classFp_of_normal h⟩⟩

end Sys2Proof.Machine
end

section
/-!
Rounding to an integer: what `roundTo` gives, by mode and sign, for a value given exactly or from below.
-/
namespace Sys2Proof.Machine

/-- The mode rounds the magnitude of a number of this sign up. -/
def RoundsAway (m : Rm) (neg : Bool) : Prop := (m = .rdn ∧ neg = true) ∨ (m = .rup ∧ neg = false)

section
variable {K : Type*} [Field K] [LinearOrder K] [IsStrictOrderedRing K]

/-- y is the integer the mode rounds the magnitude r of a number of a sign to. -/
def RoundsInt (m : Rm) (neg : Bool) (r : K) (y : Nat) : Prop :=
  (toNearest m → 2 * |r - y| ≤ 1 ∧ (2 * |r - y| = 1 → (m = .rne → y % 2 = 0) ∧ (m = .rmm → r < y))) ∧
    (RoundsAway m neg → r ≤ y ∧ (y : K) < r + 1) ∧ (¬ toNearest m → ¬ RoundsAway m neg → (y : K) ≤ r ∧ r < y + 1)

/-- The mode takes an integer of a parity up by one where this fraction is above it. -/
def FractionUp (m : Rm) (neg odd : Bool) (φ : K) : Prop :=
  (toNearest m ∧ (1 / 2 < φ ∨ (φ = 1 / 2 ∧ (m = .rne → odd = true)))) ∨ (RoundsAway m neg ∧ φ ≠ 0)

theorem not_roundsAway_of_toNearest {m : Rm} {neg : Bool} (h : toNearest m) : ¬ RoundsAway m neg := by
  obtain rfl | rfl := h <;> simp [RoundsAway]

section
variable {m : Rm} {neg up : Bool} {kept : Nat} {φ : K} (h0 : 0 ≤ φ) (h1 : φ < 1)
  (hup : up = true ↔ FractionUp m neg (kept % 2 == 1) φ)
include h0 h1 hup

omit h0 in
theorem fraction_inexact_iff : ((if up then kept + 1 else kept : Nat) : K) ≠ kept + φ ↔ φ ≠ 0 := by
  cases hu : up
  · simp
  · have hφ : φ ≠ 0 := by
      obtain ⟨-, h | ⟨h, -⟩⟩ | ⟨-, h⟩ := hup.mp hu
      · exact (one_half_pos.trans h).ne'
      · exact h ▸ one_half_pos.ne'
      · exact h
    simpa [hφ] using h1.ne'

/-- To nearest: the fraction decides, and at one half the parity or the mode. -/
theorem nearest_of_fraction (hnear : toNearest m) :
    2 * |kept + φ - (if up then kept + 1 else kept : Nat)| ≤ 1 ∧
      (2 * |kept + φ - (if up then kept + 1 else kept : Nat)| = 1 →
        (m = .rne → (if up then kept + 1 else kept) % 2 = 0) ∧
          (m = .rmm → kept + φ < (if up then kept + 1 else kept : Nat))) := by
  simp only [FractionUp, hnear, not_roundsAway_of_toNearest hnear, true_and, false_and, or_false] at hup
  cases hu : up
  · have hnot : ¬ (1 / 2 < φ ∨ (φ = 1 / 2 ∧ (m = .rne → (kept % 2 == 1) = true))) := by
      rw [← hup, hu]
      exact Bool.false_ne_true
    simp only [not_or, not_lt, not_and, Classical.not_imp, beq_iff_eq] at hnot
    obtain ⟨hle, htie⟩ := hnot
    simp only [Bool.false_eq_true, if_false, add_sub_cancel_left, abs_of_nonneg h0]
    refine ⟨by linarith, fun h => ?_⟩
    obtain ⟨rfl, hodd⟩ := htie (by linarith)
    exact ⟨fun _ => by omega, nofun⟩
  · have habs : |(kept : K) + φ - (kept + 1 : Nat)| = 1 - φ := by
      rw [Nat.cast_succ, abs_of_nonpos (by linarith)]
      ring
    have hge : 1 / 2 ≤ φ := by
      obtain h | ⟨h, -⟩ := hup.mp hu
      · exact h.le
      · exact h.ge
    simp only [if_true, habs]
    refine ⟨by linarith, fun h => ⟨fun hm => ?_, fun _ => ?_⟩⟩
    · obtain hlt | ⟨-, hodd⟩ := hup.mp hu
      · linarith
      · have := beq_iff_eq.mp (hodd hm)
        omega
    · rw [Nat.cast_succ]
      linarith

theorem roundsInt_of_fraction : RoundsInt m neg (kept + φ) (if up then kept + 1 else kept) := by
  refine ⟨nearest_of_fraction h0 h1 hup, fun haway => ?_, fun hnear haway => ?_⟩
  · have hnear : ¬ toNearest m := fun h => not_roundsAway_of_toNearest h haway
    simp only [FractionUp, hnear, haway, false_and, true_and, false_or] at hup
    cases hu : up
    · have hφ : φ = 0 := by simpa [hu] using hup
      simp [hφ]
    · have hφ : 0 < φ := h0.lt_of_ne' (hup.mp hu)
      simp only [if_true, Nat.cast_succ]
      exact ⟨by linarith, by linarith⟩
  · simp only [FractionUp, hnear, haway, false_and, false_or, iff_false] at hup
    rw [if_neg hup]
    exact ⟨by linarith, by linarith⟩

end

/-! ### The model's rounding -/

/-- What `roundsUp` decides from the digits dropped and whether more follow. -/
theorem roundsUp_iff {m : Rm} {neg odd sticky : Bool} {rem half : Nat} {φ : K} (hhalf : 0 < half)
    (hlow : (rem : K) / (2 * half) ≤ φ) (hhigh : φ < (rem + 1) / (2 * half))
    (hsticky : sticky = true ↔ (rem : K) / (2 * half) < φ) :
    (roundsUp m neg odd rem half sticky = true ↔ FractionUp m neg odd φ) ∧ ((rem != 0 || sticky) = true ↔ φ ≠ 0) := by
  have hpos : (0 : K) < 2 * half := by positivity
  rw [div_le_iff₀ hpos] at hlow
  rw [lt_div_iff₀ hpos] at hhigh
  rw [div_lt_iff₀ hpos] at hsticky
  have hhalfφ : 1 / 2 * (2 * (half : K)) = half := by ring
  have hzero : φ = 0 ↔ rem = 0 ∧ sticky = false := by
    rw [← mul_left_inj' hpos.ne', zero_mul, Bool.eq_false_iff, ne_eq, hsticky, not_lt]
    constructor
    · intro h
      have hrem : rem ≤ 0 := by exact_mod_cast h ▸ hlow
      exact ⟨Nat.le_zero.mp hrem, h ▸ Nat.cast_nonneg rem⟩
    · rintro ⟨rfl, hle⟩
      exact le_antisymm (by simpa using hle) (by simpa using hlow)
  have hcases : (1 / 2 < φ ↔ half < rem ∨ rem = half ∧ sticky = true) ∧ (φ = 1 / 2 ↔ rem = half ∧ sticky = false) := by
    rw [← mul_lt_mul_iff_left₀ hpos, hhalfφ, ← mul_left_inj' hpos.ne', hhalfφ, Bool.eq_false_iff, ne_eq, hsticky, not_lt]
    obtain hlt | heq | hgt := lt_trichotomy rem half
    · have hle : (rem : K) + 1 ≤ half := by exact_mod_cast hlt
      have hs := hhigh.trans_le hle
      simp [hlt.ne, hlt.not_gt, hs.ne, hs.not_gt]
    · subst heq
      simp [le_antisymm_iff, hlow]
    · have hs : (half : K) < φ * (2 * half) := lt_of_lt_of_le (by exact_mod_cast hgt) hlow
      simp [hgt, hgt.ne', hs, hs.ne']
  obtain ⟨hgt, heq⟩ := hcases
  constructor
  · cases m with
    | rne =>
      simp only [roundsUp, FractionUp, toNearest, RoundsAway, hgt, heq]
      cases sticky <;> simp
    | rmm =>
      simp only [roundsUp, FractionUp, toNearest, RoundsAway, hgt, heq, decide_eq_true_iff, le_iff_lt_or_eq,
        eq_comm (a := half)]
      cases sticky <;> simp
    | rtz => simp [roundsUp, FractionUp, toNearest, RoundsAway]
    | rdn => cases sticky <;> simp [roundsUp, FractionUp, toNearest, RoundsAway, hzero]
    | rup => cases sticky <;> simp [roundsUp, FractionUp, toNearest, RoundsAway, hzero]
  · rw [ne_eq, hzero]
    cases sticky <;> simp

theorem not_fractionUp_zero (m : Rm) (neg odd : Bool) : ¬ FractionUp m neg odd (0 : K) := by
  rintro (⟨-, h | ⟨h, -⟩⟩ | ⟨-, h⟩)
  · exact h.not_gt one_half_pos
  · exact h.not_lt one_half_pos
  · exact h rfl

/-- An integer is rounded to itself. -/
theorem roundsInt_self (m : Rm) (neg : Bool) (y : Nat) : RoundsInt m neg (y : K) y := by
  have h := roundsInt_of_fraction (K := K) (m := m) (neg := neg) (kept := y) (φ := 0) (up := false) le_rfl one_pos
    (iff_of_false Bool.false_ne_true (not_fractionUp_zero m neg _))
  simpa using h

/-- A magnitude given exactly, or from below where `sticky`, in units of 2 ^ quantum: `roundTo` gives the integer the mode
asks for and says whether it is another number. -/
theorem roundTo_spec {m : Rm} {neg sticky : Bool} {mant : Nat} {exp quantum : Int} {v : K}
    (hlow : (mant : K) * 2 ^ exp ≤ v) (hhigh : v < (mant + 1) * 2 ^ exp)
    (hsticky : sticky = true ↔ (mant : K) * 2 ^ exp < v) (hq : sticky = true → exp < quantum) :
    RoundsInt m neg (v / 2 ^ quantum) (roundTo m neg mant exp sticky quantum).1 ∧
      ((roundTo m neg mant exp sticky quantum).2 = true ↔
        ((roundTo m neg mant exp sticky quantum).1 : K) ≠ v / 2 ^ quantum) := by
  have htwo : (2 : K) ≠ 0 := two_ne_zero
  by_cases hle : quantum ≤ exp
  · have hexact : sticky = false := Bool.eq_false_iff.mpr fun h => (hq h).not_ge hle
    have hv : v / 2 ^ quantum = (mant * 2 ^ (exp - quantum).toNat : Nat) := by
      have hveq : v = mant * 2 ^ exp := le_antisymm (not_lt.mp fun h => by simp [hsticky.mpr h] at hexact) hlow
      rw [hveq, mul_div_assoc, ← zpow_sub₀ htwo, Nat.cast_mul, Nat.cast_pow, Nat.cast_ofNat, ← zpow_natCast,
        Int.toNat_of_nonneg (by omega)]
    rw [hv, roundTo, if_pos hle, hexact]
    exact ⟨roundsInt_self m neg _, by simp⟩
  · obtain ⟨d, hd⟩ : ∃ d : Nat, (quantum - exp).toNat = d + 1 := ⟨(quantum - exp).toNat - 1, by omega⟩
    have hhalf : (2 : K) * ((2 ^ d : Nat) : K) = 2 ^ (d + 1) := by push_cast; ring
    have hscale : v / 2 ^ quantum = v / 2 ^ exp / 2 ^ (d + 1) := by
      rw [div_div, ← zpow_natCast, ← zpow_add₀ htwo, ← hd, Int.toNat_of_nonneg (by omega), add_sub_cancel]
    have hpos : (0 : K) < 2 ^ exp := zpow_pos two_pos exp
    rw [← le_div_iff₀ hpos] at hlow
    rw [← div_lt_iff₀ hpos] at hhigh
    rw [← lt_div_iff₀ hpos] at hsticky
    rw [hscale, roundTo, if_neg hle, hd]
    generalize v / 2 ^ exp = w at hlow hhigh hsticky
    have hsplit : (mant : K) = (mant / 2 ^ (d + 1) : Nat) * 2 ^ (d + 1) + (mant % 2 ^ (d + 1) : Nat) := by
      have h := Nat.div_add_mod' mant (2 ^ (d + 1))
      exact_mod_cast h.symm
    have hd2 : (0 : K) < 2 ^ (d + 1) := by positivity
    obtain ⟨φ, hφ⟩ : ∃ φ, w / 2 ^ (d + 1) = (mant / 2 ^ (d + 1) : Nat) + φ := ⟨_, (add_sub_cancel _ _).symm⟩
    have hw : w = ((mant / 2 ^ (d + 1) : Nat) + φ) * 2 ^ (d + 1) := by rw [← hφ, div_mul_cancel₀ _ hd2.ne']
    rw [hsplit, hw, add_mul, add_le_add_iff_left, ← div_le_iff₀ hd2, ← hhalf] at hlow
    rw [hsplit, hw, add_mul, add_assoc, add_lt_add_iff_left, ← lt_div_iff₀ hd2, ← hhalf] at hhigh
    rw [hsplit, hw, add_mul, add_lt_add_iff_left, ← div_lt_iff₀ hd2, ← hhalf] at hsticky
    obtain ⟨hup, hinexact⟩ := roundsUp_iff (m := m) (neg := neg) (odd := mant / 2 ^ (d + 1) % 2 == 1) (Nat.two_pow_pos d)
      hlow hhigh hsticky
    have h0 : 0 ≤ φ := le_trans (by positivity) hlow
    have h1 : φ < 1 := by
      have hrem : ((mant % 2 ^ (d + 1) : Nat) : K) + 1 ≤ 2 ^ (d + 1) := by
        exact_mod_cast Nat.mod_lt mant (Nat.two_pow_pos (d + 1))
      exact hhigh.trans_le (by rw [hhalf, div_le_one hd2]; exact hrem)
    rw [hφ]
    exact ⟨roundsInt_of_fraction h0 h1 hup, hinexact.trans (fraction_inexact_iff h1 hup).symm⟩

end

end Sys2Proof.Machine
end

section
/-!
Rounding to a format: the pattern of a rounded magnitude, overflow, tininess, and the numbers of the format around it.
-/
namespace Sys2Proof.Machine

/-! ### When a rounded magnitude reaches an even integer -/

/-- The mode rounds a magnitude to at least an even integer N. -/
def AtLeast (m : Rm) (neg : Bool) (r : ℝ) (N : Nat) : Prop :=
  (toNearest m → (N : ℝ) - 1 / 2 ≤ r) ∧ (RoundsAway m neg → (N : ℝ) - 1 < r) ∧
    (¬ toNearest m → ¬ RoundsAway m neg → (N : ℝ) ≤ r)

section
variable {m : Rm} {neg : Bool} {r : ℝ} {N y : Nat}

theorem le_iff_atLeast (h : RoundsInt m neg r y) (hN : N % 2 = 0) : N ≤ y ↔ AtLeast m neg r N := by
  obtain ⟨hnear, haway, hdown⟩ := h
  constructor
  · intro hle
    have hle : (N : ℝ) ≤ y := Nat.cast_le.mpr hle
    refine ⟨fun hn => ?_, fun ha => ?_, fun hn ha => ?_⟩
    · have := abs_le.mp (show |r - y| ≤ 1 / 2 by linarith [(hnear hn).1])
      linarith
    · linarith [(haway ha).2]
    · linarith [(hdown hn ha).1]
  · rintro ⟨hn, ha, hd⟩
    by_contra hlt
    have hle : (y : ℝ) + 1 ≤ N := by exact_mod_cast Nat.lt_of_not_le hlt
    by_cases hmode : toNearest m
    · obtain ⟨hhalf, htie⟩ := hnear hmode
      have hN' := hn hmode
      have habs : |r - y| = r - y := abs_of_nonneg (by linarith)
      rw [habs] at hhalf htie
      obtain ⟨heven, hup⟩ := htie (by linarith)
      obtain rfl | rfl := hmode
      · have hy : (y : ℝ) + 1 = N := by linarith
        have : y + 1 = N := by exact_mod_cast hy
        have := heven rfl
        omega
      · linarith [hup rfl]
    · by_cases hmode' : RoundsAway m neg
      · linarith [ha hmode', (haway hmode').1]
      · linarith [hd hmode hmode', (hdown hmode hmode').2]

theorem atLeast_of_le (h : (N : ℝ) ≤ r) : AtLeast m neg r N :=
  ⟨fun _ => by linarith, fun _ => by linarith, fun _ _ => h⟩

theorem not_atLeast_iff : ¬ AtLeast m neg r N ↔ (toNearest m → r < (N : ℝ) - 1 / 2) ∧ (RoundsAway m neg → r ≤ (N : ℝ) - 1) ∧
    (¬ toNearest m → ¬ RoundsAway m neg → r < (N : ℝ)) := by
  unfold AtLeast
  by_cases hn : toNearest m
  · simp [hn, not_roundsAway_of_toNearest hn, lt_sub_iff_add_lt]
  · by_cases ha : RoundsAway m neg <;> simp [hn, ha]

theorem not_atLeast_of_le (h : r ≤ (N : ℝ) - 1) : ¬ AtLeast m neg r N :=
  not_atLeast_iff.mpr ⟨fun _ => by linarith, fun _ => h, fun _ _ => by linarith⟩

end

/-! ### Overflow and tininess (R535, R538) -/

section
variable {t : Fmt} {m : Rm} {neg : Bool} {x : ℝ}

theorem awayFromZero_iff (hx : x ≠ 0) (hneg : neg = true ↔ x < 0) : awayFromZero m x ↔ RoundsAway m neg := by
  have hpos : neg = false ↔ 0 < x := by
    rw [← Bool.not_eq_true, hneg, not_lt]
    exact ⟨fun h => h.lt_of_ne' hx, le_of_lt⟩
  rw [awayFromZero, RoundsAway, hneg, hpos]

theorem two_zpow_add_nat (p : Int) (n : Nat) : (2 : ℝ) ^ (p + n) = ((2 ^ n : Nat) : ℝ) * 2 ^ p := by
  rw [zpow_add₀ two_ne_zero, zpow_natCast, mul_comm, Nat.cast_pow, Nat.cast_ofNat]

theorem overflows_iff (hx : x ≠ 0) (hneg : neg = true ↔ x < 0) :
    overflows t m x ↔ AtLeast m neg (|x| / 2 ^ ((t.bias : Int) - t.fracBits)) (2 ^ (t.fracBits + 1)) := by
  have htop : (2 : ℝ) ^ ((t.bias : Int) + 1) =
      ((2 ^ (t.fracBits + 1) : Nat) : ℝ) * 2 ^ ((t.bias : Int) - t.fracBits) := by
    rw [← two_zpow_add_nat]
    congr 1
    push_cast
    ring
  have hunit : (0 : ℝ) < 2 ^ ((t.bias : Int) - t.fracBits) := zpow_pos two_pos _
  simp only [overflows, AtLeast, awayFromZero_iff hx hneg, htop, le_div_iff₀ hunit, lt_div_iff₀ hunit, sub_mul, one_mul,
    one_div, inv_mul_eq_div]

theorem tiny_iff (hx : x ≠ 0) (hneg : neg = true ↔ x < 0) :
    tiny t m x ↔ ¬ AtLeast m neg (|x| / 2 ^ (t.ulpExp - 1)) (2 ^ (t.fracBits + 1)) := by
  have hexp : t.emin - 1 - t.fracBits = t.ulpExp - 1 := by
    rw [Fmt.ulpExp]
    ring
  have hlow : (2 : ℝ) ^ t.emin = ((2 ^ (t.fracBits + 1) : Nat) : ℝ) * 2 ^ (t.ulpExp - 1) := by
    rw [← two_zpow_add_nat, Fmt.ulpExp]
    congr 1
    push_cast
    ring
  have hunit : (0 : ℝ) < 2 ^ (t.ulpExp - 1) := zpow_pos two_pos _
  simp only [tiny, not_atLeast_iff, awayFromZero_iff hx hneg, hexp, hlow, div_le_iff₀ hunit, div_lt_iff₀ hunit,
    sub_mul, one_mul, one_div, inv_mul_eq_div]

theorem div_two_zpow (v : ℝ) (p q : Int) : v / 2 ^ q = v / 2 ^ p * 2 ^ (p - q) := by
  rw [zpow_sub₀ two_ne_zero, div_mul_div_cancel₀ (zpow_ne_zero p two_ne_zero)]

/-- A magnitude whose unit is above another's reaches the end of the other's binade. -/
theorem atLeast_of_lt_quantum {f : Nat} {p q : Int} {v : ℝ} (hpq : q < p) (hv : ((2 ^ f : Nat) : ℝ) ≤ v / 2 ^ p) :
    AtLeast m neg (v / 2 ^ q) (2 ^ (f + 1)) := by
  have hgrow : (2 : ℝ) ^ (1 : Int) ≤ 2 ^ (p - q) := zpow_le_zpow_right₀ one_le_two (by omega)
  refine atLeast_of_le ?_
  rw [div_two_zpow v p q, pow_succ, Nat.cast_mul]
  exact mul_le_mul hv (by simpa using hgrow) (Nat.cast_nonneg _) ((Nat.cast_nonneg _).trans hv)

/-- A magnitude whose unit is below another's does not. -/
theorem not_atLeast_of_quantum_lt {f : Nat} {p q : Int} {v : ℝ} (hpq : p < q) (hv : v / 2 ^ p < ((2 ^ (f + 1) : Nat) : ℝ)) :
    ¬ AtLeast m neg (v / 2 ^ q) (2 ^ (f + 1)) := by
  have hpos : (0 : ℝ) < 2 ^ (p - q) := zpow_pos two_pos _
  have hshrink : (2 : ℝ) ^ (p - q) ≤ 2 ^ (-1 : Int) := zpow_le_zpow_right₀ one_le_two (by omega)
  have hone : (1 : ℝ) ≤ ((2 ^ f : Nat) : ℝ) := by exact_mod_cast Nat.one_le_two_pow
  have hdouble : ((2 ^ (f + 1) : Nat) : ℝ) = 2 * ((2 ^ f : Nat) : ℝ) := by push_cast; ring
  refine not_atLeast_of_le ?_
  calc v / 2 ^ q = v / 2 ^ p * 2 ^ (p - q) := div_two_zpow v p q
    _ ≤ 2 * ((2 ^ f : Nat) : ℝ) * 2 ^ (-1 : Int) :=
      (mul_le_mul_of_nonneg_right (hdouble ▸ hv.le) hpos.le).trans (mul_le_mul_of_nonneg_left hshrink (by positivity))
    _ = ((2 ^ f : Nat) : ℝ) := by rw [zpow_neg_one]; ring
    _ ≤ ((2 ^ (f + 1) : Nat) : ℝ) - 1 := by rw [hdouble]; linarith

end

/-! ### Patterns of magnitudes (R537) -/

section
variable (t : Fmt)

theorem Fmt.width_eq (t : Fmt) : t.width - 1 = t.expBits + t.fracBits := by cases t <;> rfl

/-- The biased exponents end at 2 bias + 1. -/
theorem Fmt.two_pow_expBits (t : Fmt) : 2 ^ t.expBits = 2 * t.bias + 2 := by cases t <;> rfl

theorem signBit_eq : t.signBit = 2 ^ t.expBits * 2 ^ t.fracBits := by rw [Fmt.signBit, t.width_eq, pow_add]

theorem infBits_lt_signBit : t.infBits < t.signBit := by
  rw [signBit_eq, Fmt.infBits]
  exact Nat.mul_lt_mul_of_pos_right (by have := Nat.two_pow_pos t.expBits; omega) (Nat.two_pow_pos _)

end

section
variable {t : Fmt} {mag : Nat} (h : mag < t.infBits) (neg : Bool)
include h

theorem withSign_lt : withSign t neg mag < 2 ^ t.width := by
  have hwidth : 2 ^ t.width = 2 * t.signBit := by cases t <;> rfl
  have := infBits_lt_signBit t
  unfold withSign
  split <;> omega

theorem signOf_withSign : signOf t (withSign t neg mag) = neg := by
  have hlt := h.trans (infBits_lt_signBit t)
  have hpos : 0 < t.signBit := by omega
  unfold signOf withSign
  cases neg
  · simp [Nat.div_eq_of_lt hlt]
  · simp [Nat.add_div_left _ hpos, Nat.div_eq_of_lt hlt]

theorem expOf_withSign : expOf t (withSign t neg mag) = mag / 2 ^ t.fracBits := by
  have hlt : mag / 2 ^ t.fracBits < 2 ^ t.expBits :=
    (Nat.div_lt_iff_lt_mul (Nat.two_pow_pos _)).mpr (signBit_eq t ▸ h.trans (infBits_lt_signBit t))
  unfold expOf withSign
  split
  · rw [signBit_eq, Nat.mul_comm, Nat.mul_add_div (Nat.two_pow_pos _), Nat.add_mod_left, Nat.mod_eq_of_lt hlt]
  · exact Nat.mod_eq_of_lt hlt

omit h in
theorem fracOf_withSign : fracOf t (withSign t neg mag) = mag % 2 ^ t.fracBits := by
  unfold fracOf withSign
  split
  · rw [signBit_eq, Nat.mul_comm, Nat.mul_add_mod]
  · rfl

/-- A magnitude pattern below infinity's is that of a finite number. -/
theorem decodeFp_withSign : decodeFp t (withSign t neg mag) = if mag / 2 ^ t.fracBits = 0 then
      .fin neg (mag % 2 ^ t.fracBits) t.ulpExp
    else .fin neg (2 ^ t.fracBits + mag % 2 ^ t.fracBits) (t.ulpExp + ((mag / 2 ^ t.fracBits : Nat) - 1 : Int)) := by
  have hne : mag / 2 ^ t.fracBits ≠ 2 ^ t.expBits - 1 := by
    have := (Nat.div_lt_iff_lt_mul (Nat.two_pow_pos _)).mpr h
    omega
  rw [decodeFp, expOf_withSign h, signOf_withSign h, fracOf_withSign, if_neg hne]

end

/-- The number of a magnitude given as y units of the quantum of a binade, or of the subnormals. -/
theorem decodeFp_of_units {t : Fmt} {d y : Nat} (hlt : d * 2 ^ t.fracBits + y < t.infBits) (hy : y ≤ 2 ^ (t.fracBits + 1))
    (hd : d = 0 ∨ 2 ^ t.fracBits ≤ y) (neg : Bool) : ∃ k e,
      decodeFp t (withSign t neg (d * 2 ^ t.fracBits + y)) = .fin neg k e ∧
        |finiteValue neg k e| = (y : ℚ) * 2 ^ (t.ulpExp + d) := by
  have hpos := Nat.two_pow_pos t.fracBits
  have hmod : (d * 2 ^ t.fracBits + y) % 2 ^ t.fracBits = y % 2 ^ t.fracBits := by rw [Nat.mul_comm, Nat.mul_add_mod]
  have hdiv : (d * 2 ^ t.fracBits + y) / 2 ^ t.fracBits = d + y / 2 ^ t.fracBits := by
    rw [Nat.mul_comm, Nat.mul_add_div hpos]
  rw [pow_succ] at hy
  rw [decodeFp_withSign hlt, hdiv, hmod]
  obtain hsub | hnorm := Nat.lt_or_ge y (2 ^ t.fracBits)
  · obtain rfl := hd.resolve_right (by omega)
    refine ⟨y, t.ulpExp, ?_, ?_⟩
    · rw [Nat.div_eq_of_lt hsub, Nat.mod_eq_of_lt hsub, if_pos rfl]
    · rw [abs_finiteValue, Nat.cast_zero, add_zero]
  obtain hlt2 | heq := hy.lt_or_eq
  · have hone : y / 2 ^ t.fracBits = 1 := Nat.div_eq_of_lt_le (by omega) (by omega)
    have hrest : 2 ^ t.fracBits + y % 2 ^ t.fracBits = y := by
      have := Nat.div_add_mod y (2 ^ t.fracBits)
      rw [hone] at this
      omega
    refine ⟨y, t.ulpExp + d, ?_, abs_finiteValue ..⟩
    rw [hone, if_neg (Nat.succ_ne_zero d), hrest, Nat.cast_succ, add_sub_cancel_right]
  · refine ⟨2 ^ t.fracBits, t.ulpExp + (d + 1), ?_, ?_⟩
    · rw [heq, Nat.mul_div_cancel_left _ hpos, Nat.mul_mod_right, if_neg (by omega)]
      congr 1
      push_cast
      ring
    · rw [abs_finiteValue, heq, ← add_assoc, zpow_add_one₀ two_ne_zero]
      push_cast
      ring

/-- The numbers of a format: fewer than 2 ^ (t + 1) units of a quantum from the smallest to the largest (R537). -/
theorem bounds_of_decodeFp {t : Fmt} {b k : Nat} {n : Bool} {e : Int} (h : decodeFp t b = .fin n k e) :
    k < 2 ^ (t.fracBits + 1) ∧ t.ulpExp ≤ e ∧ e ≤ (t.bias : Int) - t.fracBits := by
  have hfrac : fracOf t b < 2 ^ t.fracBits := Nat.mod_lt _ (Nat.two_pow_pos _)
  have hexp : expOf t b < 2 ^ t.expBits := Nat.mod_lt _ (Nat.two_pow_pos _)
  have hbias := t.two_pow_expBits
  have hpos : 0 < t.bias := by cases t <;> decide
  rw [pow_succ]
  simp only [Fmt.ulpExp, Fmt.emin] at *
  obtain ⟨hmax, -, ⟨-, rfl, rfl⟩ | ⟨hne, rfl, rfl⟩⟩ := decodeFp_eq_fin_iff.mp h
  · simp only [Fmt.ulpExp, Fmt.emin]
    omega
  · simp only [Fmt.ulpExp, Fmt.emin]
    omega

/-! ### The numbers of a format around a magnitude -/

/-- A number, in units of a quantum, is an integer or below the binade of what is rounded and of the result. -/
def OnGrid (P : Nat) (r : ℝ) (y : Nat) (ρ : ℝ) : Prop := (∃ n : Nat, ρ = n) ∨ (ρ < P ∧ (P : ℝ) ≤ r ∧ P ≤ y)

section
variable {P y : Nat} {r ρ : ℝ}

theorem OnGrid.le_of_le (h : OnGrid P r y ρ) (hr : r < y + 1) (hle : ρ ≤ r) : ρ ≤ y := by
  obtain ⟨n, rfl⟩ | ⟨hlt, -, hy⟩ := h
  · have : (n : ℝ) < (y + 1 : Nat) := by push_cast; linarith
    exact_mod_cast Nat.lt_succ_iff.mp (Nat.cast_lt.mp this)
  · exact hlt.le.trans (by exact_mod_cast hy)

theorem OnGrid.le_of_ge (h : OnGrid P r y ρ) (hr : (y : ℝ) < r + 1) (hle : r ≤ ρ) : y ≤ ρ := by
  obtain ⟨n, rfl⟩ | ⟨hlt, hP, -⟩ := h
  · have : (y : ℝ) < (n + 1 : Nat) := by push_cast; linarith
    exact_mod_cast Nat.lt_succ_iff.mp (Nat.cast_lt.mp this)
  · linarith

theorem abs_sub_le_of_nat (h : 2 * |r - y| ≤ 1) (n : Nat) :
    |r - y| ≤ |r - n| ∧ ((n : ℝ) ≠ y → |r - n| = |r - y| → 2 * |r - y| = 1) := by
  by_cases hn : n = y
  · exact ⟨by rw [hn], fun hne => absurd (by rw [hn]) hne⟩
  · have hdist : (1 : ℝ) ≤ |(n : ℝ) - y| := by
      have : (1 : ℤ) ≤ |(n : ℤ) - y| := Int.one_le_abs (by omega)
      exact_mod_cast this
    have htri : |(n : ℝ) - y| ≤ |r - n| + |r - y| := by
      rw [show (n : ℝ) - y = (r - y) - (r - n) by ring, add_comm]
      exact abs_sub _ _
    exact ⟨by linarith, fun _ heq => by linarith⟩

/-- No number of the format is nearer than the integer nearest, and one as near is only where that is half a unit away. -/
theorem OnGrid.nearest (h : OnGrid P r y ρ) (hr : 2 * |r - y| ≤ 1) :
    |r - y| ≤ |r - ρ| ∧ (ρ ≠ y → |r - ρ| = |r - y| → 2 * |r - y| = 1) := by
  obtain ⟨n, rfl⟩ | ⟨hlt, hP, -⟩ := h
  · exact abs_sub_le_of_nat hr n
  · have hP' := (abs_sub_le_of_nat hr P).1
    have hfar : |r - P| < |r - ρ| := by
      rw [abs_of_nonneg (by linarith), abs_of_nonneg (by linarith)]
      linarith
    exact ⟨by linarith, fun _ heq => by linarith⟩

end

end Sys2Proof.Machine
end

section
/-!
`roundFp` rounds correctly: the pattern it gives is the one the mode asks for, with the flags.
-/
namespace Sys2Proof.Machine

/-! ### Signed neighbours -/

section
variable {P y : Nat} {r w : ℝ} (h : OnGrid P r y |w|)
include h

theorem OnGrid.signed_le_of_le (hr : r < y + 1) (hle : w ≤ r) : w ≤ y := by
  obtain hw | hw := le_total 0 w
  · rw [abs_of_nonneg hw] at h
    exact h.le_of_le hr hle
  · exact hw.trans (Nat.cast_nonneg y)

theorem OnGrid.signed_le_of_ge (hpos : 0 < r) (hr : (y : ℝ) < r + 1) (hle : r ≤ w) : y ≤ w := by
  rw [abs_of_nonneg (hpos.le.trans hle)] at h
  exact h.le_of_ge hr hle

theorem OnGrid.signed_nearest (hpos : 0 < r) (hr : 2 * |r - y| ≤ 1) :
    |r - y| ≤ |r - w| ∧ (w ≠ y → |r - w| = |r - y| → 2 * |r - y| = 1) := by
  obtain hw | hw := le_or_gt 0 w
  · rw [abs_of_nonneg hw] at h
    exact h.nearest hr
  · have hzero := (abs_sub_le_of_nat hr 0).1
    have hfar : |r - (0 : Nat)| < |r - w| := by
      rw [Nat.cast_zero, sub_zero, abs_of_pos hpos, abs_of_pos (by linarith)]
      linarith
    exact ⟨by linarith, fun _ heq => by linarith⟩

end

/-- The sign of a number as a factor. -/
def signFactor (neg : Bool) : ℝ := if neg then -1 else 1

theorem signFactor_mul_self (neg : Bool) : signFactor neg * signFactor neg = 1 := by cases neg <;> simp [signFactor]

theorem abs_signFactor_mul (neg : Bool) (a : ℝ) : |signFactor neg * a| = |a| := by cases neg <;> simp [signFactor]

theorem finiteValue_eq_signFactor (neg : Bool) (k : Nat) (e : Int) :
    ((finiteValue neg k e : ℚ) : ℝ) = signFactor neg * ((|finiteValue neg k e| : ℚ) : ℝ) := by
  rw [abs_finiteValue, finiteValue_eq_mul]
  cases neg <;> simp [signFactor]

/-- What the mode rounds a magnitude to, in units of a quantum, is with the sign what it rounds the number to among all
numbers of the format, where these are on the grid of the quantum. -/
theorem nearest_of_roundsInt {t : Fmt} {m : Rm} {neg : Bool} {r u : ℝ} {y P bits : Nat} (hu : 0 < u) (hpos : 0 < r)
    (hround : RoundsInt m neg r y) (hgrid : ∀ v, representable t v → OnGrid P r y (|(v : ℝ)| / u))
    (hparity : bits % 2 = y % 2) : nearest t m (signFactor neg * (r * u)) (signFactor neg * (y * u)) bits := by
  obtain ⟨hnear, haway, hdown⟩ := hround
  have hsigned (v : ℚ) (hv : representable t v) : ∃ w, (v : ℝ) = signFactor neg * (w * u) ∧ OnGrid P r y |w| := by
    refine ⟨signFactor neg * v / u, ?_, ?_⟩
    · rw [div_mul_cancel₀ _ hu.ne', ← mul_assoc, signFactor_mul_self, one_mul]
    · rw [abs_div, abs_signFactor_mul, abs_of_pos hu]
      exact hgrid v hv
  have hdist (a b : ℝ) : |signFactor neg * (a * u) - signFactor neg * (b * u)| = |a - b| * u := by
    rw [← mul_sub, ← sub_mul, abs_signFactor_mul, abs_mul, abs_of_pos hu]
  have habs (a : ℝ) : |signFactor neg * (a * u)| = |a| * u := by rw [abs_signFactor_mul, abs_mul, abs_of_pos hu]
  have hnearest (hm : toNearest m) (w : ℝ) (hw : OnGrid P r y |w|) := hw.signed_nearest hpos (hnear hm).1
  have hbelow (hm : ¬ toNearest m) (ha : ¬ RoundsAway m neg) : y * u ≤ r * u ∧
      ∀ w, OnGrid P r y |w| → w * u ≤ r * u → w * u ≤ y * u := by
    obtain ⟨hle, hlt⟩ := hdown hm ha
    exact ⟨mul_le_mul_of_nonneg_right hle hu.le, fun w hw h =>
      mul_le_mul_of_nonneg_right (hw.signed_le_of_le hlt (le_of_mul_le_mul_right h hu)) hu.le⟩
  have habove (ha : RoundsAway m neg) : r * u ≤ y * u ∧ ∀ w, OnGrid P r y |w| → r * u ≤ w * u → y * u ≤ w * u := by
    obtain ⟨hle, hlt⟩ := haway ha
    exact ⟨mul_le_mul_of_nonneg_right hle hu.le, fun w hw h =>
      mul_le_mul_of_nonneg_right (hw.signed_le_of_ge hpos hlt (le_of_mul_le_mul_right h hu)) hu.le⟩
  have hall {p : ℝ → Prop} (h : ∀ w, OnGrid P r y |w| → p (signFactor neg * (w * u))) (v : ℚ) (hv : representable t v) :
      p v := by
    obtain ⟨w, hvw, hw⟩ := hsigned v hv
    exact hvw ▸ h w hw
  cases m with
  | rtz =>
    obtain ⟨hle, hlt⟩ := hdown (by simp [toNearest]) (by simp [RoundsAway])
    refine ⟨?_, fun v hv h => ?_⟩
    · rw [habs, habs, abs_of_pos hpos, Nat.abs_cast]
      exact mul_le_mul_of_nonneg_right hle hu.le
    · obtain ⟨w, hvw, hw⟩ := hsigned v hv
      rw [hvw, habs, habs] at h
      rw [hvw, habs, habs, Nat.abs_cast]
      rw [abs_of_pos hpos] at h
      exact mul_le_mul_of_nonneg_right (hw.le_of_le hlt (le_of_mul_le_mul_right h hu)) hu.le
  | rdn =>
    cases neg with
    | false =>
      obtain ⟨hle, hgrid⟩ := hbelow (by simp [toNearest]) (by simp [RoundsAway])
      exact ⟨by simpa [signFactor] using hle, hall (p := fun v => v ≤ _ → v ≤ _) fun w hw => by
        simpa [signFactor] using hgrid w hw⟩
    | true =>
      obtain ⟨hle, hgrid⟩ := habove (by simp [RoundsAway])
      exact ⟨by simpa [signFactor] using hle, hall (p := fun v => v ≤ _ → v ≤ _) fun w hw => by
        simpa [signFactor] using hgrid w hw⟩
  | rup =>
    cases neg with
    | false =>
      obtain ⟨hle, hgrid⟩ := habove (by simp [RoundsAway])
      exact ⟨by simpa [signFactor] using hle, hall (p := fun v => _ ≤ v → _ ≤ v) fun w hw => by
        simpa [signFactor] using hgrid w hw⟩
    | true =>
      obtain ⟨hle, hgrid⟩ := hbelow (by simp [toNearest]) (by simp [RoundsAway])
      exact ⟨by simpa [signFactor] using hle, hall (p := fun v => _ ≤ v → _ ≤ v) fun w hw => by
        simpa [signFactor] using hgrid w hw⟩
  | rne =>
    intro v hv
    obtain ⟨w, hvw, hw⟩ := hsigned v hv
    obtain ⟨hle, htie⟩ := hnearest (.inl rfl) w hw
    rw [hvw, hdist, hdist]
    refine ⟨mul_le_mul_of_nonneg_right hle hu.le, fun hne heq => ?_⟩
    have hwy : w ≠ y := fun h => hne (by rw [h])
    rw [hparity]
    exact ((hnear (.inl rfl)).2 (htie hwy (mul_right_cancel₀ hu.ne' heq))).1 rfl
  | rmm =>
    intro v hv
    obtain ⟨w, hvw, hw⟩ := hsigned v hv
    obtain ⟨hle, htie⟩ := hnearest (.inr rfl) w hw
    rw [hvw, hdist, hdist, habs, habs]
    refine ⟨mul_le_mul_of_nonneg_right hle hu.le, fun heq => mul_le_mul_of_nonneg_right ?_ hu.le⟩
    by_cases hwy : w = y
    · rw [hwy]
    · have hdiff := mul_right_cancel₀ hu.ne' heq
      have hlt : r < y := ((hnear (.inr rfl)).2 (htie hwy hdiff)).2 rfl
      rw [abs_of_neg (a := r - y) (by linarith)] at hdiff
      have hw' := abs_le.mp hdiff.le
      rw [Nat.abs_cast, abs_le]
      exact ⟨by linarith, by linarith⟩

/-- The numbers of a format in units of a quantum: those of its binades and above are integers. -/
theorem onGrid_of_representable {t : Fmt} {d y : Nat} {r : ℝ} {v : ℚ} (hv : representable t v)
    (hbinade : d = 0 ∨ ((2 ^ t.fracBits : Nat) : ℝ) ≤ r ∧ 2 ^ t.fracBits ≤ y) :
    OnGrid (2 ^ t.fracBits) r y (|(v : ℝ)| / 2 ^ (t.ulpExp + d)) := by
  obtain ⟨b, neg, k, e, hdecode, rfl⟩ := hv
  obtain ⟨hk, he, -⟩ := bounds_of_decodeFp hdecode
  have habs : |((finiteValue neg k e : ℚ) : ℝ)| / 2 ^ (t.ulpExp + d) = k * 2 ^ (e - (t.ulpExp + d)) := by
    rw [← Rat.cast_abs, abs_finiteValue, zpow_sub₀ two_ne_zero, ← mul_div_assoc]
    push_cast
    rfl
  rw [habs]
  by_cases hle : t.ulpExp + d ≤ e
  · refine .inl ⟨k * 2 ^ (e - (t.ulpExp + d)).toNat, ?_⟩
    rw [Nat.cast_mul, Nat.cast_pow, Nat.cast_ofNat, ← zpow_natCast, Int.toNat_of_nonneg (by omega)]
  · have hd : d ≠ 0 := by
      rintro rfl
      simp only [Nat.cast_zero, add_zero] at hle
      exact hle he
    have hk : (k : ℝ) < 2 * ((2 ^ t.fracBits : Nat) : ℝ) := by
      rw [pow_succ, mul_comm] at hk
      exact_mod_cast hk
    have hpow : (2 : ℝ) ^ (e - (t.ulpExp + d)) ≤ 2 ^ (-1 : Int) := zpow_le_zpow_right₀ one_le_two (by omega)
    refine .inr ⟨?_, hbinade.resolve_left hd⟩
    calc (k : ℝ) * 2 ^ (e - (t.ulpExp + d)) ≤ k * 2 ^ (-1 : Int) := mul_le_mul_of_nonneg_left hpow (Nat.cast_nonneg k)
      _ < ((2 ^ t.fracBits : Nat) : ℝ) := by
        rw [zpow_neg_one]
        linarith

/-! ### The magnitude, its binade and what it is rounded to -/

theorem RoundsInt.close {m : Rm} {neg : Bool} {r : ℝ} {y : Nat} (h : RoundsInt m neg r y) : (y : ℝ) < r + 1 ∧ r < y + 1 := by
  obtain ⟨hnear, haway, hdown⟩ := h
  by_cases hn : toNearest m
  · have := abs_le.mp (show |r - y| ≤ 1 / 2 by linarith [(hnear hn).1])
    exact ⟨by linarith, by linarith⟩
  · by_cases ha : RoundsAway m neg
    · exact ⟨(haway ha).2, by linarith [(haway ha).1]⟩
    · exact ⟨by linarith [(hdown hn ha).1], (hdown hn ha).2⟩

theorem RoundsInt.le_of_lt {m : Rm} {neg : Bool} {r : ℝ} {y N : Nat} (h : RoundsInt m neg r y) (hr : r < N) : y ≤ N := by
  have : (y : ℝ) < (N + 1 : Nat) := by push_cast; linarith [h.close.1]
  exact Nat.lt_succ_iff.mp (Nat.cast_lt.mp this)

theorem RoundsInt.le_of_ge {m : Rm} {neg : Bool} {r : ℝ} {y N : Nat} (h : RoundsInt m neg r y) (hr : (N : ℝ) ≤ r) :
    N ≤ y := by
  have : (N : ℝ) < (y + 1 : Nat) := by push_cast; linarith [h.close.2]
  exact Nat.lt_succ_iff.mp (Nat.cast_lt.mp this)

/-- The quantum of the binade of a magnitude. -/
theorem binade_of_mant {mant f : Nat} {exp : Int} {v : ℝ} (hmant : mant ≠ 0) (hlow : (mant : ℝ) * 2 ^ exp ≤ v)
    (hhigh : v < (mant + 1) * 2 ^ exp) : ((2 ^ f : Nat) : ℝ) ≤ v / 2 ^ (exp + (mant.log2 : Int) - f) ∧
      v / 2 ^ (exp + (mant.log2 : Int) - f) < ((2 ^ (f + 1) : Nat) : ℝ) := by
  have hpos : (0 : ℝ) < 2 ^ (exp + (mant.log2 : Int) - f) := zpow_pos two_pos _
  have hexp : (0 : ℝ) < 2 ^ exp := zpow_pos two_pos _
  have hunit (n : Nat) : ((2 ^ (f + n) : Nat) : ℝ) * 2 ^ (exp + (mant.log2 : Int) - f) =
      ((2 ^ (mant.log2 + n) : Nat) : ℝ) * 2 ^ exp := by
    rw [← two_zpow_add_nat, ← two_zpow_add_nat]
    congr 1
    push_cast
    ring
  have hunit₀ := hunit 0
  simp only [add_zero] at hunit₀
  rw [le_div_iff₀ hpos, div_lt_iff₀ hpos, hunit 1, hunit₀]
  constructor
  · exact le_trans (mul_le_mul_of_nonneg_right (Nat.cast_le.mpr (Nat.log2_self_le hmant)) hexp.le) hlow
  · refine hhigh.trans_le (mul_le_mul_of_nonneg_right ?_ hexp.le)
    exact_mod_cast Nat.lt_log2_self

section
variable {t : Fmt} {m : Rm} {neg : Bool} {v : ℝ} {y : Nat}

/-- The pattern is infinity's or beyond exactly where the mode rounds the magnitude to 2 ^ (emax + 1) or beyond. -/
theorem infBits_le_iff {d : Nat} (hround : RoundsInt m neg (v / 2 ^ (t.ulpExp + d)) y)
    (hlow : d = 0 ∨ ((2 ^ t.fracBits : Nat) : ℝ) ≤ v / 2 ^ (t.ulpExp + d))
    (hhigh : v / 2 ^ (t.ulpExp + d) < ((2 ^ (t.fracBits + 1) : Nat) : ℝ)) :
    t.infBits ≤ d * 2 ^ t.fracBits + y ↔ AtLeast m neg (v / 2 ^ ((t.bias : Int) - t.fracBits)) (2 ^ (t.fracBits + 1)) := by
  obtain ⟨D, hD⟩ : ∃ D, 2 * t.bias = D + 1 := ⟨2 * t.bias - 1, by cases t <;> decide⟩
  have hinf : t.infBits = D * 2 ^ t.fracBits + 2 ^ (t.fracBits + 1) := by
    rw [Fmt.infBits, t.two_pow_expBits, hD, pow_succ, show D + 1 + 2 - 1 = D + 2 by omega]
    ring
  have hquantum : (t.bias : Int) - t.fracBits = t.ulpExp + D := by
    simp only [Fmt.ulpExp, Fmt.emin]
    omega
  have hmono {a b : Nat} (h : a < b) : a * 2 ^ t.fracBits + 2 ^ t.fracBits ≤ b * 2 ^ t.fracBits := by
    rw [← Nat.succ_mul]
    exact Nat.mul_le_mul_right _ h
  have hpos := Nat.two_pow_pos t.fracBits
  have hy := hround.le_of_lt hhigh
  have hdouble : 2 ^ (t.fracBits + 1) = 2 * 2 ^ t.fracBits := by rw [pow_succ, Nat.mul_comm]
  rw [hinf, hquantum]
  obtain hlt | rfl | hgt := lt_trichotomy d D
  · refine iff_of_false ?_ (not_atLeast_of_quantum_lt (p := t.ulpExp + d) (by omega) hhigh)
    have := hmono hlt
    omega
  · rw [Nat.add_le_add_iff_left]
    exact le_iff_atLeast hround (by omega)
  · have hr := hlow.resolve_left (by omega)
    refine iff_of_true ?_ (atLeast_of_lt_quantum (p := t.ulpExp + d) (by omega) hr)
    have := hmono hgt
    have := hround.le_of_ge hr
    omega

/-- The magnitude rounded with unbounded exponent is below 2 ^ emin. -/
theorem top_lt_emin_iff {q : Int} (hround : RoundsInt m neg (v / 2 ^ q) y)
    (hlow : ((2 ^ t.fracBits : Nat) : ℝ) ≤ v / 2 ^ q) (hhigh : v / 2 ^ q < ((2 ^ (t.fracBits + 1) : Nat) : ℝ)) :
    (if y = 2 ^ (t.fracBits + 1) then q + (t.fracBits : Int) + 1 else q + (t.fracBits : Int)) < t.emin ↔
      ¬ AtLeast m neg (v / 2 ^ (t.ulpExp - 1)) (2 ^ (t.fracBits + 1)) := by
  have hemin : t.emin = t.ulpExp + t.fracBits := by
    simp only [Fmt.ulpExp]
    omega
  rw [hemin]
  obtain hlt | rfl | hgt := lt_trichotomy q (t.ulpExp - 1)
  · refine iff_of_true ?_ (not_atLeast_of_quantum_lt hlt hhigh)
    split <;> omega
  · have hy := hround.le_of_lt hhigh
    rw [← le_iff_atLeast hround (by rw [pow_succ]; omega)]
    split <;> omega
  · refine iff_of_false ?_ (not_not.mpr (atLeast_of_lt_quantum hgt hlow))
    split <;> omega

/-- `roundFp` in units: the quantum it rounds to, what it rounds to, and whether the number is tiny. -/
theorem roundFp_eq {sticky : Bool} {mant : Nat} {exp : Int} (hmant : mant ≠ 0)
    (hlow : (mant : ℝ) * 2 ^ exp ≤ v) (hhigh : v < (mant + 1) * 2 ^ exp)
    (hsticky : sticky = true ↔ (mant : ℝ) * 2 ^ exp < v) (hmore : sticky = true → 2 ^ (t.fracBits + 1) ≤ mant) :
    ∃ (d y : Nat) (inexact small : Bool),
      RoundsInt m neg (v / 2 ^ (t.ulpExp + d)) y ∧ (inexact = true ↔ (y : ℝ) ≠ v / 2 ^ (t.ulpExp + d)) ∧
      (d = 0 ∨ ((2 ^ t.fracBits : Nat) : ℝ) ≤ v / 2 ^ (t.ulpExp + d)) ∧
      v / 2 ^ (t.ulpExp + d) < ((2 ^ (t.fracBits + 1) : Nat) : ℝ) ∧
      (small = true ↔ ¬ AtLeast m neg (v / 2 ^ (t.ulpExp - 1)) (2 ^ (t.fracBits + 1))) ∧
      roundFp t m neg mant exp sticky = if t.infBits ≤ d * 2 ^ t.fracBits + y then overflowResult t m neg
        else ⟨withSign t neg (d * 2 ^ t.fracBits + y),
          if inexact then (if small then flagUF ||| flagNX else flagNX) else noFlags⟩ := by
  obtain ⟨hbinlow, hbinhigh⟩ := binade_of_mant (f := t.fracBits) hmant hlow hhigh
  have hq : sticky = true → exp < exp + (mant.log2 : Int) - t.fracBits := fun h => by
    have := (Nat.le_log2 hmant).mpr (hmore h)
    omega
  unfold roundFp
  generalize exp + (mant.log2 : Int) - t.fracBits = q at hbinlow hbinhigh hq
  obtain ⟨d, hd⟩ : ∃ d : Nat, (if q < t.ulpExp then t.ulpExp else q) = t.ulpExp + d :=
    ⟨((if q < t.ulpExp then t.ulpExp else q) - t.ulpExp).toNat, by split <;> omega⟩
  have hle : q ≤ t.ulpExp + d := by
    rw [← hd]
    split <;> omega
  obtain ⟨hround, hinexact⟩ := roundTo_spec (m := m) (neg := neg) hlow hhigh hsticky fun h => (hq h).trans_le hle
  obtain ⟨htop, -⟩ := roundTo_spec (m := m) (neg := neg) hlow hhigh hsticky hq
  have hv : 0 ≤ v := le_trans (by positivity) hlow
  have htiny := top_lt_emin_iff (t := t) htop hbinlow hbinhigh
  refine ⟨d, _, _, _, hround, hinexact, ?_, ?_, decide_eq_true_iff.trans htiny, ?_⟩
  · by_cases hsub : q < t.ulpExp
    · rw [if_pos hsub] at hd
      exact .inl (by omega)
    · rw [if_neg hsub] at hd
      rw [← hd]
      exact .inr hbinlow
  · refine lt_of_le_of_lt ?_ hbinhigh
    exact div_le_div_of_nonneg_left hv (zpow_pos two_pos _) (zpow_le_zpow_right₀ one_le_two hle)
  · simp only [hd, add_sub_cancel_left, Int.toNat_natCast, decide_eq_true_iff]

end

/-! ### The result -/

theorem overflowResult_bits (t : Fmt) (m : Rm) (neg : Bool) :
    (toNearest m ∨ RoundsAway m neg → (overflowResult t m neg).bits = withSign t neg t.infBits) ∧
      (¬ (toNearest m ∨ RoundsAway m neg) → (overflowResult t m neg).bits = withSign t neg (t.infBits - 1)) := by
  cases m <;> cases neg <;> simp [overflowResult, toNearest, RoundsAway]

theorem withSign_mod_two (t : Fmt) (neg : Bool) (d y : Nat) : withSign t neg (d * 2 ^ t.fracBits + y) % 2 = y % 2 := by
  have hfrac : 2 ^ t.fracBits % 2 = 0 := by cases t <;> decide
  have hsign : t.signBit % 2 = 0 := by cases t <;> decide
  have hmul : d * 2 ^ t.fracBits % 2 = 0 := by rw [Nat.mul_mod, hfrac, Nat.mul_zero]
  unfold withSign
  split <;> omega

theorem signFactor_mul_abs {neg : Bool} {x : ℝ} (hneg : neg = true ↔ x < 0) : signFactor neg * |x| = x := by
  rw [signFactor]
  split
  case isTrue hn => rw [abs_of_neg (hneg.mp hn)]; ring
  case isFalse hn => rw [abs_of_nonneg (not_lt.mp (mt hneg.mpr hn)), one_mul]

/-- Without overflow the pattern is that of the number the mode asks for, which is exact where its units are. -/
theorem nearest_of_units {t : Fmt} {m : Rm} {neg : Bool} {x : ℝ} {d y : Nat} (hx : x ≠ 0) (hneg : neg = true ↔ x < 0)
    (hround : RoundsInt m neg (|x| / 2 ^ (t.ulpExp + d)) y)
    (hbinade : d = 0 ∨ ((2 ^ t.fracBits : Nat) : ℝ) ≤ |x| / 2 ^ (t.ulpExp + d))
    (hlt : |x| / 2 ^ (t.ulpExp + d) < ((2 ^ (t.fracBits + 1) : Nat) : ℝ)) (hmag : d * 2 ^ t.fracBits + y < t.infBits) :
    ∃ k e, decodeFp t (withSign t neg (d * 2 ^ t.fracBits + y)) = .fin neg k e ∧
      nearest t m x (finiteValue neg k e : ℚ) (withSign t neg (d * 2 ^ t.fracBits + y)) ∧
      (((finiteValue neg k e : ℚ) : ℝ) = x ↔ (y : ℝ) = |x| / 2 ^ (t.ulpExp + d)) := by
  obtain ⟨k, e, hdecode, habs⟩ := decodeFp_of_units hmag (hround.le_of_lt hlt) (hbinade.imp_right hround.le_of_ge) neg
  have hu : (0 : ℝ) < 2 ^ (t.ulpExp + d) := zpow_pos two_pos _
  have hxeq : signFactor neg * (|x| / 2 ^ (t.ulpExp + d) * 2 ^ (t.ulpExp + d)) = x := by
    rw [div_mul_cancel₀ _ hu.ne', signFactor_mul_abs hneg]
  have hval : ((finiteValue neg k e : ℚ) : ℝ) = signFactor neg * (y * 2 ^ (t.ulpExp + d)) := by
    rw [finiteValue_eq_signFactor, habs]
    push_cast
    rfl
  refine ⟨k, e, hdecode, ?_, ?_⟩
  · have hn := nearest_of_roundsInt (t := t) hu (div_pos (abs_pos.mpr hx) hu) hround
      (fun v hv => onGrid_of_representable hv (hbinade.imp_right fun h => ⟨h, hround.le_of_ge h⟩))
      (withSign_mod_two t neg d y)
    rwa [hxeq, ← hval] at hn
  · have hsign : signFactor neg ≠ 0 := fun h => by simpa [h] using signFactor_mul_self neg
    rw [hval]
    exact ⟨fun h => mul_right_cancel₀ hu.ne' (mul_left_cancel₀ hsign (h.trans hxeq.symm)), fun h => by rw [h, hxeq]⟩

/-- Settles O51: the quantum of the magnitude's binade makes rounding to the format rounding to an integer. -/
theorem roundingCorrect : Obligations.RoundingCorrect := by
  intro t m neg mant exp sticky x hmant hneg hexact hinexact
  have hpow : (0 : ℝ) < 2 ^ exp := zpow_pos two_pos exp
  have hbounds : (mant : ℝ) * 2 ^ exp ≤ |x| ∧ |x| < (mant + 1) * 2 ^ exp ∧
      (sticky = true ↔ (mant : ℝ) * 2 ^ exp < |x|) ∧ (sticky = true → 2 ^ (t.fracBits + 1) ≤ mant) := by
    cases sticky with
    | false =>
      rw [hexact rfl]
      exact ⟨le_rfl, mul_lt_mul_of_pos_right (lt_add_one _) hpow, by simp, nofun⟩
    | true =>
      obtain ⟨hmore, hlow, hhigh⟩ := hinexact rfl
      exact ⟨hlow.le, hhigh, by simp [hlow], fun _ => hmore⟩
  obtain ⟨hlow, hhigh, hsticky, hmore⟩ := hbounds
  have hx : x ≠ 0 := abs_pos.mp ((mul_pos (Nat.cast_pos.mpr (Nat.pos_of_ne_zero hmant)) hpow).trans_le hlow)
  have haway := awayFromZero_iff (m := m) hx hneg
  obtain ⟨d, y, inexact, small, hround, hy, hbinade, hlt, hsmall, heq⟩ :=
    roundFp_eq (t := t) (m := m) (neg := neg) hmant hlow hhigh hsticky hmore
  have hover := (infBits_le_iff hround hbinade hlt).trans (overflows_iff hx hneg).symm
  rw [heq]
  refine ⟨fun h => ?_, fun h => ?_⟩
  · rw [if_pos (hover.mpr h), haway]
    exact ⟨neg, hneg, rfl, overflowResult_bits t m neg⟩
  · have hmag := mt hover.mp h
    have htiny : small = true ↔ tiny t m x := hsmall.trans (tiny_iff hx hneg).symm
    obtain ⟨k, e, hdecode, hnearest, hvalue⟩ := nearest_of_units hx hneg hround hbinade hlt (not_le.mp hmag)
    have hne : inexact = true ↔ ((finiteValue neg k e : ℚ) : ℝ) ≠ x := hy.trans (not_congr hvalue.symm)
    rw [if_neg hmag]
    refine ⟨neg, k, e, hdecode, withSign_lt (not_le.mp hmag) neg, hneg, hnearest, fun hyx => ?_, fun hyx h => ?_,
      fun hyx h => ?_⟩
    · rw [Bool.eq_false_iff.mpr fun h => hne.mp h hyx]
      rfl
    · rw [hne.mpr hyx, htiny.mpr h]
      rfl
    · rw [hne.mpr hyx, Bool.eq_false_iff.mpr (mt htiny.mp h)]
      rfl

end Sys2Proof.Machine
end

section
/-!
The arithmetic of finite operands: exact integer arithmetic, then one rounding.
-/
namespace Sys2Proof.Machine

section
variable {t : Fmt} {m : Rm}

/-! ### An exact result rounded once -/

/-- The value of a finite number as a real. -/
theorem cast_finiteValue (n : Bool) (k : Nat) (e : Int) :
    ((finiteValue n k e : ℚ) : ℝ) = signFactor n * ((k : ℝ) * 2 ^ e) := by
  rw [finiteValue_eq_signFactor, abs_finiteValue]
  push_cast
  rfl

theorem cast_finiteValue_eq_zero_iff {n : Bool} {k : Nat} {e : Int} : ((finiteValue n k e : ℚ) : ℝ) = 0 ↔ k = 0 := by
  rw [Rat.cast_eq_zero, finiteValue_eq_zero_iff]

theorem cast_finiteValue_neg_iff {n : Bool} {k : Nat} {e : Int} :
    ((finiteValue n k e : ℚ) : ℝ) < 0 ↔ k ≠ 0 ∧ n = true := by
  have hpow : (0 : ℝ) < 2 ^ e := zpow_pos two_pos e
  have hnonneg : (0 : ℝ) ≤ k * 2 ^ e := by positivity
  rw [cast_finiteValue]
  cases n <;> simp [signFactor, Nat.pos_iff_ne_zero, hpow, hnonneg]

theorem abs_cast_finiteValue (n : Bool) (k : Nat) (e : Int) : |((finiteValue n k e : ℚ) : ℝ)| = (k : ℝ) * 2 ^ e := by
  have hnonneg : (0 : ℝ) ≤ k * 2 ^ e := by positivity
  rw [cast_finiteValue, abs_signFactor_mul, abs_of_nonneg hnonneg]

/-- An exact number is rounded once, with the sign given where it is zero. -/
theorem roundOrZero_correct {neg zeroNeg : Bool} {mant : Nat} {exp : Int} {x : ℝ}
    (hx : x = (finiteValue neg mant exp : ℚ)) : (x ≠ 0 → RoundsTo t m x (roundOrZero t m neg mant exp zeroNeg)) ∧
      (x = 0 → ZeroResult t zeroNeg (roundOrZero t m neg mant exp zeroNeg)) := by
  subst hx
  rw [ne_eq, cast_finiteValue_eq_zero_iff]
  refine ⟨fun hmant => ?_, fun hmant => ?_⟩
  · rw [roundOrZero, if_neg hmant]
    exact roundingCorrect t m neg mant exp false _ hmant (cast_finiteValue_neg_iff.trans (and_iff_right hmant)).symm
      (fun _ => abs_cast_finiteValue neg mant exp) nofun
  · rw [roundOrZero, if_pos hmant]
    exact ⟨rfl, rfl⟩

theorem finiteValue_natAbs (k e : Int) : finiteValue (decide (k < 0)) k.natAbs e = (k : ℚ) * 2 ^ e := by
  rw [finiteValue_eq_mul, Nat.cast_natAbs, Int.cast_abs]
  obtain hk | hk := lt_or_ge k 0
  · have hk' : (k : ℚ) < 0 := Int.cast_lt_zero.mpr hk
    simp [hk, abs_of_neg hk']
  · have hk' : (0 : ℚ) ≤ k := Int.cast_nonneg hk
    simp [hk.not_gt, abs_of_nonneg hk']

theorem finiteValue_not (n : Bool) (k : Nat) (e : Int) : finiteValue (!n) k e = -finiteValue n k e := by
  rw [finiteValue_eq_mul, finiteValue_eq_mul]
  cases n <;> simp

theorem finiteValue_mul (na nb : Bool) (ma mb : Nat) (ea eb : Int) :
    finiteValue (na != nb) (ma * mb) (ea + eb) = finiteValue na ma ea * finiteValue nb mb eb := by
  simp only [finiteValue_eq_mul, zpow_add₀ (two_ne_zero (α := ℚ)), Nat.cast_mul]
  cases na <;> cases nb <;> simp <;> ring

theorem signFactor_bne (na nb : Bool) : signFactor (na != nb) = signFactor na * signFactor nb := by
  cases na <;> cases nb <;> simp [signFactor]

theorem div_signFactor (a : ℝ) (n : Bool) : a / signFactor n = a * signFactor n := by
  cases n <;> simp [signFactor, div_neg]

/-! ### Addition -/

section
variable {na nb : Bool} {ma mb : Nat} {ea eb : Int} {x : ℝ}

/-- The sum is rounded once; an exact zero has the operands' sign where they are zeros of one sign. -/
theorem addFinite_correct (hx : x = (finiteValue na ma ea : ℚ) + (finiteValue nb mb eb : ℚ)) :
    (x ≠ 0 → RoundsTo t m x (addFinite t m na ma ea nb mb eb)) ∧
      (x = 0 → ZeroResult t (if ma = 0 ∧ mb = 0 ∧ na = nb then na else m == .rdn) (addFinite t m na ma ea nb mb eb)) := by
  obtain ⟨e, he, hea, heb⟩ : ∃ e, (if ea ≤ eb then ea else eb) = e ∧ e ≤ ea ∧ e ≤ eb :=
    ⟨_, rfl, by split <;> omega, by split <;> omega⟩
  simp only [addFinite, he]
  refine roundOrZero_correct ?_
  rw [hx, finiteValue_natAbs, Int.cast_add, add_mul, scaled_mul_two_zpow na ma hea, scaled_mul_two_zpow nb mb heb,
    Rat.cast_add]

/-- The sign of an exact zero, in the words of the operands' values. -/
theorem zeroSign_eq {a b : ℝ} (ha : a = (finiteValue na ma ea : ℚ)) (hb : b = (finiteValue nb mb eb : ℚ)) (hsum : a + b = 0)
    (n : Bool) : (if ma = 0 ∧ mb = 0 ∧ na = n then na else m == .rdn) =
      if a = 0 ∧ na = n then na else decide (m = .rdn) := by
  have hma : a = 0 ↔ ma = 0 := by rw [ha, cast_finiteValue_eq_zero_iff]
  have hmb : b = 0 ↔ mb = 0 := by rw [hb, cast_finiteValue_eq_zero_iff]
  have hboth : ma = 0 → mb = 0 := fun h => hmb.mp (by rwa [hma.mpr h, zero_add] at hsum)
  have hcond : (ma = 0 ∧ mb = 0 ∧ na = n) ↔ a = 0 ∧ na = n := by
    rw [hma]
    exact ⟨fun ⟨h, _, hn⟩ => ⟨h, hn⟩, fun ⟨h, hn⟩ => ⟨h, hboth h, hn⟩⟩
  simp only [hcond]
  rfl

/-! ### Division and square root: a floor with enough bits, and whether more follow -/

omit na nb ma mb ea eb in
theorem roundFp_of_floor {neg sticky : Bool} {mant : Nat} {exp : Int} {w : ℝ} (hx : x = signFactor neg * (w * 2 ^ exp))
    (hlow : (mant : ℝ) ≤ w) (hhigh : w < mant + 1) (hsticky : sticky = true ↔ (mant : ℝ) ≠ w)
    (hmore : 2 ^ (t.fracBits + 1) ≤ mant) : RoundsTo t m x (roundFp t m neg mant exp sticky) := by
  have hpow : (0 : ℝ) < 2 ^ exp := zpow_pos two_pos exp
  have hmant : 0 < mant := lt_of_lt_of_le (Nat.two_pow_pos _) hmore
  have hw : 0 < w := lt_of_lt_of_le (Nat.cast_pos.mpr hmant) hlow
  have habs : |x| = w * 2 ^ exp := by rw [hx, abs_signFactor_mul, abs_of_pos (mul_pos hw hpow)]
  refine roundingCorrect t m neg mant exp sticky x hmant.ne' ?_ (fun h => ?_) fun h => ⟨hmore, ?_, ?_⟩
  · rw [hx]
    cases neg <;> simp [signFactor, mul_pos hw hpow, (mul_pos hw hpow).le]
  · have hexact : (mant : ℝ) = w := by
      by_contra hne
      exact Bool.false_ne_true (h ▸ hsticky.mpr hne)
    rw [habs, hexact]
  · rw [habs]
    exact mul_lt_mul_of_pos_right (hlow.lt_of_ne (hsticky.mp h)) hpow
  · rw [habs]
    exact mul_lt_mul_of_pos_right hhigh hpow

theorem divFinite_correct (hma : ma ≠ 0) (hmb : mb ≠ 0) (hb : mb < 2 ^ (t.fracBits + 1))
    (hx : x = (finiteValue na ma ea : ℚ) / (finiteValue nb mb eb : ℚ)) :
    RoundsTo t m x (divFinite t m (na != nb) ma ea mb eb) := by
  have hmb' : (0 : ℝ) < mb := Nat.cast_pos.mpr (Nat.pos_of_ne_zero hmb)
  have hfloor : ((ma * 2 ^ (2 * t.fracBits + 5) : Nat) : ℝ) =
      (ma * 2 ^ (2 * t.fracBits + 5) / mb : Nat) * mb + (ma * 2 ^ (2 * t.fracBits + 5) % mb : Nat) := by
    exact_mod_cast (Nat.div_add_mod' _ _).symm
  have hrem : ((ma * 2 ^ (2 * t.fracBits + 5) % mb : Nat) : ℝ) < mb := by
    exact_mod_cast Nat.mod_lt _ (Nat.pos_of_ne_zero hmb)
  refine roundFp_of_floor (w := (ma * 2 ^ (2 * t.fracBits + 5) : Nat) / mb) ?_ ?_ ?_ ?_ ?_
  · have hpow : (2 : ℝ) ^ (ea - eb - ((2 * t.fracBits + 5 : Nat) : Int)) = 2 ^ ea / 2 ^ eb / 2 ^ (2 * t.fracBits + 5) := by
      rw [zpow_sub₀ two_ne_zero, zpow_sub₀ two_ne_zero, zpow_natCast]
    have heb : (2 : ℝ) ^ eb ≠ 0 := zpow_ne_zero _ two_ne_zero
    have hne := hmb'.ne'
    rw [hx, cast_finiteValue, cast_finiteValue, signFactor_bne, hpow, Nat.cast_mul, Nat.cast_pow, Nat.cast_ofNat,
      ← div_signFactor]
    field_simp
  · rw [le_div_iff₀ hmb', hfloor]
    exact le_add_of_nonneg_right (Nat.cast_nonneg _)
  · rw [div_lt_iff₀ hmb', hfloor, add_mul, one_mul]
    linarith
  · rw [bne_iff_ne, ne_eq, ne_eq, not_iff_not, eq_div_iff hmb'.ne', hfloor, left_eq_add, Nat.cast_eq_zero]
  · rw [Nat.le_div_iff_mul_le (Nat.pos_of_ne_zero hmb)]
    calc 2 ^ (t.fracBits + 1) * mb ≤ 2 ^ (t.fracBits + 1) * 2 ^ (t.fracBits + 1) := Nat.mul_le_mul_left _ hb.le
      _ ≤ 2 ^ (2 * t.fracBits + 5) := by
        rw [← pow_add]
        exact Nat.pow_le_pow_right two_pos (by omega)
      _ ≤ ma * 2 ^ (2 * t.fracBits + 5) := Nat.le_mul_of_pos_left _ (Nat.pos_of_ne_zero hma)

/-- The square root, bit by bit: `isqrtFrom` completes a number whose square fits to the greatest one. -/
theorem isqrtFrom_spec (n bits r : Nat) (hlow : r * r ≤ n) (hhigh : n < (r + 2 ^ bits) * (r + 2 ^ bits)) :
    isqrtFrom n bits r * isqrtFrom n bits r ≤ n ∧ n < (isqrtFrom n bits r + 1) * (isqrtFrom n bits r + 1) := by
  induction bits generalizing r with
  | zero => exact ⟨hlow, hhigh⟩
  | succ bits ih =>
    rw [isqrtFrom]
    split
    case isTrue h =>
      refine ih _ h ?_
      rwa [add_assoc, ← two_mul, ← pow_succ']
    case isFalse h => exact ih r hlow (not_le.mp h)

theorem isqrtFrom_zero_spec {n bits : Nat} (h : n < 2 ^ bits * 2 ^ bits) :
    isqrtFrom n bits 0 * isqrtFrom n bits 0 ≤ n ∧ n < (isqrtFrom n bits 0 + 1) * (isqrtFrom n bits 0 + 1) :=
  isqrtFrom_spec n bits 0 (Nat.zero_le n) (by rwa [Nat.zero_add])

/-- The greatest integer whose square is at most n is the floor of its square root. -/
theorem floor_sqrt {n r : Nat} (hlow : r * r ≤ n) (hhigh : n < (r + 1) * (r + 1)) :
    (r : ℝ) ≤ Real.sqrt n ∧ Real.sqrt n < r + 1 ∧ ((r : ℝ) ≠ Real.sqrt n ↔ r * r ≠ n) := by
  have hr : (0 : ℝ) ≤ r := Nat.cast_nonneg r
  refine ⟨Real.le_sqrt_of_sq_le ?_, (Real.sqrt_lt' (by positivity)).mpr ?_, not_congr ?_⟩
  · rw [sq]
    exact_mod_cast hlow
  · rw [sq]
    exact_mod_cast hhigh
  · rw [eq_comm, Real.sqrt_eq_iff_mul_self_eq (Nat.cast_nonneg n) hr]
    norm_cast
    exact eq_comm

/-- An even exponent comes out of the root. -/
theorem sqrt_mul_two_zpow (a : ℝ) (e : Int) : Real.sqrt (a * 2 ^ (2 * e)) = Real.sqrt a * 2 ^ e := by
  have hpow : (2 : ℝ) ^ (2 * e) = 2 ^ e * 2 ^ e := by rw [two_mul, zpow_add₀ two_ne_zero]
  rw [hpow, Real.sqrt_mul' a (by positivity), Real.sqrt_mul_self (by positivity)]

theorem sqrtFinite_correct (hma : ma ≠ 0) (hlt : ma < 2 ^ (t.fracBits + 1))
    (hx : x = Real.sqrt (finiteValue false ma ea : ℚ)) : RoundsTo t m x (sqrtFinite t m ma ea) := by
  obtain ⟨mant, hmant⟩ : ∃ mant, (if (ea % 2 == 1) = true then 2 * ma else ma) = mant := ⟨_, rfl⟩
  obtain ⟨e, he⟩ : ∃ e, (if (ea % 2 == 1) = true then ea - 1 else ea) / 2 = e := ⟨_, rfl⟩
  have hvalue : (ma : ℝ) * 2 ^ ea = mant * 2 ^ (2 * e) := by
    rw [← hmant, ← he]
    by_cases hodd : ea % 2 = 1
    · have hsplit : ea = 2 * ((ea - 1) / 2) + 1 := by omega
      simp only [hodd, beq_self_eq_true, if_true]
      conv_lhs => rw [hsplit, zpow_add_one₀ two_ne_zero]
      push_cast
      ring
    · have hsplit : ea = 2 * (ea / 2) := by omega
      simp only [beq_iff_eq, hodd, if_false]
      rw [← hsplit]
  have hrange : 0 < mant ∧ mant < 2 ^ (t.fracBits + 2) := by
    rw [← hmant, pow_succ]
    split <;> omega
  obtain ⟨hpos, hlt2⟩ := hrange
  simp only [sqrtFinite, hmant, he]
  obtain ⟨hlow, hhigh⟩ := isqrtFrom_zero_spec (n := mant * 2 ^ (2 * (t.fracBits + 3))) (bits := 2 * t.fracBits + 6) (by
    calc mant * 2 ^ (2 * (t.fracBits + 3)) < 2 ^ (t.fracBits + 2) * 2 ^ (2 * (t.fracBits + 3)) :=
          Nat.mul_lt_mul_of_pos_right hlt2 (Nat.two_pow_pos _)
      _ ≤ 2 ^ (2 * t.fracBits + 6) * 2 ^ (2 * t.fracBits + 6) := by
        rw [← pow_add, ← pow_add]
        exact Nat.pow_le_pow_right two_pos (by omega))
  generalize isqrtFrom (mant * 2 ^ (2 * (t.fracBits + 3))) (2 * t.fracBits + 6) 0 = r at hlow hhigh ⊢
  obtain ⟨hle, hlt1, hne⟩ := floor_sqrt hlow hhigh
  refine roundFp_of_floor (w := Real.sqrt (mant * 2 ^ (2 * (t.fracBits + 3)) : Nat)) ?_ hle hlt1 ?_ ?_
  · have hscale : (2 : ℝ) ^ (2 * (t.fracBits + 3)) = 2 ^ (2 * ((t.fracBits + 3 : Nat) : Int)) := by
      rw [← zpow_natCast, Nat.cast_mul, Nat.cast_ofNat]
    have hexp : (2 : ℝ) ^ e = 2 ^ ((t.fracBits + 3 : Nat) : Int) * 2 ^ (e - ((t.fracBits + 3 : Nat) : Int)) := by
      rw [← zpow_add₀ two_ne_zero, add_sub_cancel]
    rw [hx, cast_finiteValue, hvalue, Nat.cast_mul, Nat.cast_pow, Nat.cast_ofNat, hscale, sqrt_mul_two_zpow, mul_assoc,
      ← hexp, signFactor, if_neg Bool.false_ne_true, one_mul, one_mul, sqrt_mul_two_zpow]
  · rw [bne_iff_ne, hne]
  · by_contra hsmall
    have hsquare : (r + 1) * (r + 1) ≤ 2 ^ (t.fracBits + 1) * 2 ^ (t.fracBits + 1) := Nat.mul_le_mul (by omega) (by omega)
    have hpow : 2 ^ (t.fracBits + 1) * 2 ^ (t.fracBits + 1) ≤ 2 ^ (2 * (t.fracBits + 3)) := by
      rw [← pow_add]
      exact Nat.pow_le_pow_right two_pos (by omega)
    have hmul : 2 ^ (2 * (t.fracBits + 3)) ≤ mant * 2 ^ (2 * (t.fracBits + 3)) := Nat.le_mul_of_pos_left _ hpos
    omega

end

end

/-! ### The operations on finite operands -/

section
variable {t : Fmt} {m : Rm} {na nb : Bool} {ma mb : Nat} {ea eb : Int}

theorem divFp_fin (hmb : mb ≠ 0) (hma : ma ≠ 0) :
    divFp t m (.fin na ma ea) (.fin nb mb eb) = divFinite t m (na != nb) ma ea mb eb := by
  simp [divFp, hma, hmb]

theorem divFp_zero_fin (hmb : mb ≠ 0) : ZeroResult t (na != nb) (divFp t m (.fin na 0 ea) (.fin nb mb eb)) := by
  simp [divFp, hmb, ZeroResult, zeroResult]

theorem divFp_fin_zero (hma : ma ≠ 0) :
    divFp t m (.fin na ma ea) (.fin nb 0 eb) = ⟨withSign t (na != nb) t.infBits, flagDZ⟩ := by
  simp [divFp, hma, infResult]

theorem sqrtFp_fin (hma : ma ≠ 0) : sqrtFp t m (.fin false ma ea) = sqrtFinite t m ma ea := by
  simp [sqrtFp, hma]

theorem sqrtFp_neg (hma : ma ≠ 0) : InvalidResult t (sqrtFp t m (.fin true ma ea)) := by
  simp [sqrtFp, hma, InvalidResult, nanResult]

end

/-- Settles O52: the sums are exact integers, the quotient and the root floors with enough bits. -/
theorem arithmeticIsRounded : Obligations.ArithmeticIsRounded := by
  intro t m u v w na nb nc ma mb mc ea eb ec hu hv hw a b c
  rw [hu, hv, hw]
  intro fa fb fc down
  have ha : a = 0 ↔ ma = 0 := cast_finiteValue_eq_zero_iff
  have hb : b = 0 ↔ mb = 0 := cast_finiteValue_eq_zero_iff
  have hadd := addFinite_correct (t := t) (m := m) (x := a + b) rfl
  have hsub := addFinite_correct (t := t) (m := m) (x := a - b) (na := na) (ma := ma) (ea := ea) (nb := !nb) (mb := mb)
    (eb := eb) (by rw [finiteValue_not, Rat.cast_neg, sub_eq_add_neg])
  have hproduct : a * b = ((finiteValue (na != nb) (ma * mb) (ea + eb) : ℚ) : ℝ) := by rw [finiteValue_mul, Rat.cast_mul]
  have hmul := roundOrZero_correct (t := t) (m := m) (zeroNeg := na != nb) hproduct
  have hfma := addFinite_correct (t := t) (m := m) (x := a * b + c) (nb := nc) (mb := mc) (eb := ec) (by rw [hproduct])
  refine ⟨hadd.1, fun h => ?_, hsub.1, fun h => ?_, hmul.1, hmul.2, fun hane hbne => ?_, fun hz hbne => ?_,
    fun hane hz => ?_, fun hza hzb => ?_, fun hpos => ?_, fun hz => ?_, fun hneg => ?_, hfma.1, fun h => ?_⟩
  · rw [← zeroSign_eq (na := na) (m := m) rfl rfl h nb]
    exact hadd.2 h
  · rw [← zeroSign_eq (na := na) (m := m) (b := -b) rfl (by rw [finiteValue_not, Rat.cast_neg])
      (by rwa [← sub_eq_add_neg]) (!nb)]
    exact hsub.2 h
  · rw [divFp_fin (mt hb.mpr hbne) (mt ha.mpr hane)]
    exact divFinite_correct (mt ha.mpr hane) (mt hb.mpr hbne) (bounds_of_decodeFp hv).1 rfl
  · obtain rfl := ha.mp hz
    exact divFp_zero_fin (mt hb.mpr hbne)
  · obtain rfl := hb.mp hz
    exact divFp_fin_zero (mt ha.mpr hane)
  · obtain rfl := ha.mp hza
    obtain rfl := hb.mp hzb
    exact ⟨rfl, rfl⟩
  · have hma : ma ≠ 0 := mt ha.mpr hpos.ne'
    obtain rfl : na = false := Bool.eq_false_iff.mpr fun h => hpos.not_gt (cast_finiteValue_neg_iff.mpr ⟨hma, h⟩)
    rw [sqrtFp_fin hma]
    exact sqrtFinite_correct hma (bounds_of_decodeFp hu).1 rfl
  · obtain rfl := ha.mp hz
    exact ⟨rfl, rfl⟩
  · obtain ⟨hma, rfl⟩ := cast_finiteValue_neg_iff.mp hneg
    exact sqrtFp_neg hma
  · have hzero : c = 0 ↔ a * b = 0 := ⟨fun hc => by rwa [hc, add_zero] at h, fun hab => by rwa [hab, zero_add] at h⟩
    have hsign : (if c = 0 ∧ (na != nb) = nc then nc else down) =
        if a * b = 0 ∧ (na != nb) = nc then na != nb else decide (m = .rdn) := by
      simp only [hzero]
      by_cases hsame : (na != nb) = nc
      · simp only [hsame, down]
      · simp only [hsame, and_false, if_false, down]
    rw [hsign, ← zeroSign_eq (na := na != nb) (m := m) hproduct rfl h nc]
    exact hfma.2 h

end Sys2Proof.Machine
end

section
/-!
The conversions: to an integer range, from an integer, and between formats.
-/
namespace Sys2Proof.Machine

/-! ### To an integer -/

/-- An integer with a sign. -/
def signed (neg : Bool) (y : Nat) : Int := if neg then -(y : Int) else y

section
variable {m : Rm} {neg : Bool} {v x : ℚ} {y : Nat} (h : RoundsInt m neg v y) (hx : x = (if neg then -1 else 1) * v)
include hx

omit h in
theorem abs_sub_signed : |x - (signed neg y : Int)| = |v - y| := by
  rw [hx, signed]
  cases neg
  · simp
  · rw [← abs_neg]
    simp only [if_true]
    push_cast
    ring_nf

include h

theorem signed_eq_floor (hnear : ¬ toNearest m) (haway : ¬ RoundsAway m neg) : signed neg y = if neg then ⌈x⌉ else ⌊x⌋ := by
  obtain ⟨-, -, hdown⟩ := h
  have hfloor : ⌊v⌋ = (y : Int) := Int.floor_eq_iff.mpr (by exact_mod_cast hdown hnear haway)
  rw [hx, signed]
  cases neg <;> simp [Int.ceil_neg, hfloor]

theorem signed_eq_ceil (haway : RoundsAway m neg) : signed neg y = if neg then ⌊x⌋ else ⌈x⌉ := by
  obtain ⟨-, hup, -⟩ := h
  obtain ⟨hle, hlt⟩ := hup haway
  have hceil : ⌈v⌉ = (y : Int) := Int.ceil_eq_iff.mpr ⟨by push_cast; linarith, by exact_mod_cast hle⟩
  rw [hx, signed]
  cases neg <;> simp [Int.floor_neg, hceil]

theorem signed_nearest (hnear : toNearest m) : 2 * |x - (signed neg y : Int)| ≤ 1 ∧
    (2 * |x - (signed neg y : Int)| = 1 → (m = .rne → signed neg y % 2 = 0) ∧
      (m = .rmm → v < |((signed neg y : Int) : ℚ)|)) := by
  obtain ⟨hn, -, -⟩ := h
  obtain ⟨hhalf, htie⟩ := hn hnear
  rw [abs_sub_signed hx]
  refine ⟨hhalf, fun heq => ?_⟩
  obtain ⟨heven, hup⟩ := htie heq
  refine ⟨fun hm => ?_, fun hm => ?_⟩
  · have := heven hm
    unfold signed
    split <;> omega
  · have habs : |((signed neg y : Int) : ℚ)| = y := by cases neg <;> simp [signed]
    rw [habs]
    exact hup hm

end

/-- The mode's integer of a rational number. -/
theorem exists_rounded_integer (m : Rm) (lo hi : Int) (neg : Bool) (mant : Nat) (exp : Int) : ∃ y : Nat,
    RoundsInt m neg |finiteValue neg mant exp| y ∧ toIntFp m lo hi (.fin neg mant exp) =
      if signed neg y < lo then (lo, flagNV) else if hi < signed neg y then (hi, flagNV)
      else (signed neg y, if ((signed neg y : Int) : ℚ) = finiteValue neg mant exp then noFlags else flagNX) := by
  have hpow : (0 : ℚ) < 2 ^ exp := zpow_pos two_pos exp
  obtain ⟨hround, hinexact⟩ := roundTo_spec (K := ℚ) (m := m) (neg := neg) (sticky := false) (mant := mant) (exp := exp)
    (quantum := 0) le_rfl (mul_lt_mul_of_pos_right (lt_add_one _) hpow) (by simp) nofun
  rw [zpow_zero, div_one, ← abs_finiteValue neg] at hround hinexact
  refine ⟨_, hround, ?_⟩
  simp only [toIntFp]
  generalize roundTo m neg mant exp false 0 = r at hround hinexact ⊢
  have hexact : ((signed neg r.1 : Int) : ℚ) = finiteValue neg mant exp ↔ r.2 = false := by
    rw [← Bool.not_eq_true, hinexact, not_not, eq_comm, ← sub_eq_zero, ← abs_eq_zero,
      abs_sub_signed (v := |finiteValue neg mant exp|) (by rw [abs_finiteValue, finiteValue_eq_mul]), abs_eq_zero,
      sub_eq_zero, eq_comm]
  have hflags : (if r.2 = true then flagNX else noFlags) =
      if ((signed neg r.1 : Int) : ℚ) = finiteValue neg mant exp then noFlags else flagNX := by
    simp only [hexact]
    cases r.2 <;> rfl
  rw [hflags]
  rfl

/-! ### Between formats -/

/-- The formats are ordered: a wider one has no fewer digits, no greater smallest number, and the same or a greater range. -/
theorem Fmt.wider {src dst : Fmt} (h : src.width ≤ dst.width) : src.fracBits ≤ dst.fracBits ∧ dst.ulpExp ≤ src.ulpExp ∧
    (src = dst ∨ src.bias + 1 ≤ dst.bias) := by
  cases src <;> cases dst <;> revert h <;> decide

section
variable {src dst : Fmt} {m : Rm} {n : Bool} {u k : Nat} {e : Int} (h : decodeFp src u = .fin n k e)
  (hwide : src.width ≤ dst.width)
include h hwide

/-- A number of a format is below the overflow of a wider one. -/
theorem not_atLeast_of_wider : ¬ AtLeast m n ((k : ℝ) * 2 ^ e / 2 ^ ((dst.bias : Int) - dst.fracBits))
    (2 ^ (dst.fracBits + 1)) := by
  obtain ⟨-, -, hrange⟩ := Fmt.wider hwide
  obtain ⟨hk, -, he⟩ := bounds_of_decodeFp h
  refine not_atLeast_of_le ?_
  rw [mul_div_assoc, ← zpow_sub₀ two_ne_zero]
  obtain rfl | hbias := hrange
  · have hle : (k : ℝ) ≤ ((2 ^ (src.fracBits + 1) : Nat) : ℝ) - 1 := by
      rw [le_sub_iff_add_le]
      exact_mod_cast hk
    exact (mul_le_of_le_one_right (Nat.cast_nonneg k) (zpow_le_one_of_nonpos₀ one_le_two (by omega))).trans hle
  · have hpow : (0 : ℝ) < 2 ^ (e - ((dst.bias : Int) - dst.fracBits)) := zpow_pos two_pos _
    have hone : (1 : ℝ) ≤ ((2 ^ dst.fracBits : Nat) : ℝ) := by exact_mod_cast Nat.one_le_two_pow
    calc (k : ℝ) * 2 ^ (e - ((dst.bias : Int) - dst.fracBits))
      _ ≤ ((2 ^ (src.fracBits + 1) : Nat) : ℝ) * 2 ^ (e - ((dst.bias : Int) - dst.fracBits)) :=
        mul_le_mul_of_nonneg_right (Nat.cast_le.mpr hk.le) hpow.le
      _ = 2 ^ (e - ((dst.bias : Int) - dst.fracBits) + (src.fracBits + 1 : Nat)) := (two_zpow_add_nat _ _).symm
      _ ≤ (2 : ℝ) ^ (dst.fracBits : Int) := zpow_le_zpow_right₀ one_le_two (by push_cast; omega)
      _ = ((2 ^ dst.fracBits : Nat) : ℝ) := by rw [zpow_natCast, Nat.cast_pow, Nat.cast_ofNat]
      _ ≤ ((2 ^ (dst.fracBits + 1) : Nat) : ℝ) - 1 := by
        rw [pow_succ, Nat.cast_mul, Nat.cast_ofNat]
        linarith

/-- A number of a format is an integer of the units that a wider one rounds it to. -/
theorem exact_of_wider {d y : Nat} (hround : RoundsInt m n ((k : ℝ) * 2 ^ e / 2 ^ (dst.ulpExp + d)) y)
    (hlow : d = 0 ∨ ((2 ^ dst.fracBits : Nat) : ℝ) ≤ (k : ℝ) * 2 ^ e / 2 ^ (dst.ulpExp + d)) :
    (y : ℝ) = (k : ℝ) * 2 ^ e / 2 ^ (dst.ulpExp + d) := by
  obtain ⟨hfrac, hulp, -⟩ := Fmt.wider hwide
  obtain ⟨hk, he, -⟩ := bounds_of_decodeFp h
  have hunits : dst.ulpExp + d ≤ e := by
    obtain rfl | hlow := hlow
    · rw [Nat.cast_zero, add_zero]
      exact hulp.trans he
    · have hpow : (0 : ℝ) < 2 ^ (e - (dst.ulpExp + d)) := zpow_pos two_pos _
      rw [mul_div_assoc, ← zpow_sub₀ two_ne_zero] at hlow
      have hlt : (2 : ℝ) ^ (dst.fracBits : Int) < 2 ^ (e - (dst.ulpExp + d) + (src.fracBits + 1 : Nat)) := by
        rw [two_zpow_add_nat, zpow_natCast, ← Nat.cast_ofNat (R := ℝ), ← Nat.cast_pow]
        exact hlow.trans_lt (mul_lt_mul_of_pos_right (Nat.cast_lt.mpr hk) hpow)
      have := (zpow_lt_zpow_iff_right₀ one_lt_two).mp hlt
      push_cast at this
      omega
  have hint : (k : ℝ) * 2 ^ e / 2 ^ (dst.ulpExp + d) = (k * 2 ^ (e - (dst.ulpExp + d)).toNat : Nat) := by
    rw [mul_div_assoc, ← zpow_sub₀ two_ne_zero, Nat.cast_mul, Nat.cast_pow, Nat.cast_ofNat, ← zpow_natCast,
      Int.toNat_of_nonneg (by omega)]
  rw [hint] at hround ⊢
  obtain ⟨hlt, hgt⟩ := hround.close
  norm_cast at hlt hgt ⊢
  omega

/-- A nonzero number of a format is the same number in a wider one. -/
theorem roundFp_of_wider (hk : k ≠ 0) : (roundFp dst m n k e false).flags = noFlags ∧ ∃ k' e',
    decodeFp dst (roundFp dst m n k e false).bits = .fin n k' e' ∧ finiteValue n k' e' = finiteValue n k e := by
  have hpow : (0 : ℝ) < 2 ^ e := zpow_pos two_pos e
  obtain ⟨d, y, inexact, small, hround, hinexact, hlow, hhigh, -, heq⟩ := roundFp_eq (t := dst) (m := m) (neg := n)
    (sticky := false) hk le_rfl (mul_lt_mul_of_pos_right (lt_add_one (k : ℝ)) hpow) (by simp) nofun
  have hexact := exact_of_wider h hwide hround hlow
  have hmag := mt (infBits_le_iff hround hlow hhigh).mp (not_atLeast_of_wider h hwide)
  obtain ⟨k', e', hdecode, habs⟩ := decodeFp_of_units (not_le.mp hmag) (hround.le_of_lt hhigh)
    (hlow.imp_right hround.le_of_ge) n
  have hfalse : inexact = false := Bool.eq_false_iff.mpr fun h => hinexact.mp h hexact
  rw [heq, if_neg hmag, hfalse]
  refine ⟨rfl, k', e', hdecode, ?_⟩
  have hunits : (k' : ℚ) * 2 ^ e' = k * 2 ^ e := by
    rw [← abs_finiteValue n k' e', habs]
    rw [eq_div_iff (zpow_ne_zero _ two_ne_zero)] at hexact
    rw [← Rat.cast_inj (α := ℝ)]
    push_cast
    exact hexact
  rw [finiteValue_eq_mul, finiteValue_eq_mul, hunits]

/-- A number of a format is the same number in a wider one. -/
theorem convertFp_of_wider : (convertFp dst m (.fin n k e)).flags = noFlags ∧ ∃ k' e',
    decodeFp dst (convertFp dst m (.fin n k e)).bits = .fin n k' e' ∧ finiteValue n k' e' = finiteValue n k e := by
  rw [convertFp, roundOrZero]
  split
  case isTrue hk =>
    obtain ⟨k', e', hdecode, habs⟩ := decodeFp_of_units (t := dst) (d := 0) (y := 0) (by cases dst <;> decide)
      (Nat.zero_le _) (.inl rfl) n
    rw [Nat.zero_mul] at hdecode
    rw [Nat.cast_zero, zero_mul, abs_eq_zero] at habs
    exact ⟨rfl, k', e', hdecode, habs.trans (finiteValue_eq_zero_iff.mpr hk).symm⟩
  case isFalse hk => exact roundFp_of_wider h hwide hk

end

/-- Settles O53. -/
theorem conversionsAreRounded : Obligations.ConversionsAreRounded := by
  refine ⟨fun m lo hi => ⟨fun _ => rfl, fun _ => rfl, fun neg mant exp => ?_⟩, fun t m i => ⟨?_, rfl⟩, ?_⟩
  · intro x
    obtain ⟨y, hround, heq⟩ := exists_rounded_integer m lo hi neg mant exp
    have hx : x = (if neg then -1 else 1) * |x| := by rw [abs_finiteValue, ← finiteValue_eq_mul]
    refine ⟨signed neg y, ?_, heq⟩
    cases m with
    | rtz => exact signed_eq_floor hround hx (by simp [toNearest]) (by simp [RoundsAway])
    | rne =>
      obtain ⟨hhalf, htie⟩ := signed_nearest hround hx (.inl rfl)
      exact ⟨hhalf, fun heq => (htie heq).1 rfl⟩
    | rmm =>
      obtain ⟨hhalf, htie⟩ := signed_nearest hround hx (.inr rfl)
      exact ⟨hhalf, fun heq => (htie heq).2 rfl⟩
    | rdn =>
      cases neg with
      | false => exact signed_eq_floor hround hx (by simp [toNearest]) (by simp [RoundsAway])
      | true => exact signed_eq_ceil hround hx (by simp [RoundsAway])
    | rup =>
      cases neg with
      | false => exact signed_eq_ceil hround hx (by simp [RoundsAway])
      | true => exact signed_eq_floor hround hx (by simp [toNearest]) (by simp [RoundsAway])
  · intro hi
    refine (roundOrZero_correct ?_).1 (Int.cast_ne_zero.mpr hi)
    rw [finiteValue_natAbs, zpow_zero, mul_one, Rat.cast_intCast]
  · intro src dst m u n k e h
    rw [h]
    intro x r
    have hround := roundOrZero_correct (t := dst) (m := m) (zeroNeg := n) (x := x) rfl
    exact ⟨hround.1, hround.2, fun hwide => convertFp_of_wider h hwide⟩

end Sys2Proof.Machine
end
